-- ==== Sys2Proof/Word.lean ====
section
/-! DEFINITION. The words of the part's interface: bytes, two-byte fields, CRC registers and logical addresses. -/

namespace Sys2Proof

/-- One byte of the wire or of the array. -/
abbrev Byte := BitVec 8

/-- A two-byte field of a frame (count, payload length, sector fields; R168). -/
abbrev Half := BitVec 16

/-- A 32-bit register value or digest (R96). -/
abbrev Word := BitVec 32

/-- A 24-bit logical address (R25). -/
abbrev LogicalAddress := BitVec 24

end Sys2Proof
end

