-- ==== Sys2Proof/Config.lean ====
section
/-! DEFINITION. The fixed figures of the part that rules name, and its free values. -/

namespace Sys2Proof.Config

/-- FREE VALUE (log 8). The value of the n-th unspecified byte drawn: a byte of a sector under erase at one read
(R2), or a byte of a page or sector cut by a reset or by loss of power (R19). Nothing constrains it. -/
opaque freeByte : Nat → Byte

/-- R1: the array holds 8,388,608 bytes. -/
def arrayBytes : Nat := 8388608

/-- R1: a sector is 4,096 bytes. -/
def sectorBytes : Nat := 4096

/-- R1: a page is 256 bytes. -/
def pageBytes : Nat := 256

/-- R1: each bank holds 1,024 sectors; sectors 1024 and up lie in Bank 1. -/
def bankSectors : Nat := 1024

/-- R21: sector numbers run from 0 to 2047. -/
def sectorCount : Nat := 2048

/-- R46: the credits of a port. -/
def credits : Nat := 8

/-- R13: an erase is suspended at most this many times. -/
def suspendLimit : Nat := 8

/-- R110: a reset pulse runs for 10 ms. -/
def pulseMs : Nat := 10

/-- R153: the select-hold limit is 50 ms. -/
def holdLimitMs : Nat := 50

/-- R89: at the largest SPI clock a transaction carries fewer than this many bytes before the hold limit. -/
def transactionBytes : Nat := 312500

/-- R2, log 9 (DESIGN CHOICE, unsafe): what a byte of the array that nothing has written reads as, and R5: the
value of every byte of an erased sector. -/
def erasedByte : Byte := 0xFF

/-- R145: the filler byte. -/
def filler : Byte := 0xFF

end Sys2Proof.Config
end

