-- ==== Sys2Proof/Syntax.lean ====
section
/-! DEFINITION. The commands of the part: one constructor of `Instr` for each row of spec/opcode_table.json, with
the names (ports, banks, transaction kinds, frame fields) their operands use. -/

namespace Sys2Proof

/-- Ports P0 to P3. -/
abbrev Port := Fin 4

/-- Bank 0 and Bank 1 (R1). -/
abbrev BankId := Fin 2

/-- The thirteen transaction kinds of Table 9-1 (R146). -/
inductive TransactionKind where
  | directRead | submit | fetch | readStatus | readPeerStatus
  | writeEnable | writeDisable | clearEvents | setEventEnables | clearCauses
  | confirmBoot | service | restart
  deriving DecidableEq, Repr

/-- The bytes of a SUBMIT frame after its opener, as Table 11-2 gives them (R148, R169). A frame whose payload
length is at most 256 carries that many payload bytes and a check byte; one with a greater payload length ends with
that field, and `payload` is then empty and `check` is not part of the frame. -/
structure SubmitFrame where
  kind : Byte
  tag : Byte
  address : LogicalAddress
  count : Half
  payloadLength : Half
  payload : List Byte
  check : Byte
  deriving DecidableEq, Repr

/-- What a TRANSACTION_START spells: the port, and the first bytes of the transaction's frame, those that the master clocks
before the next command of this port where they leave the frame unfinished (log 6). -/
structure TransactionStart where
  port : Port
  bytes : List Byte
  deriving DecidableEq, Repr

/-- Which request of a port a deadline expiry names: the queued request at a place counted from the head of the
queue, or the current request (R51). -/
inductive Timed where
  | queued (place : Nat)
  | current
  deriving DecidableEq, Repr

/-- The commands: one constructor per row of spec/opcode_table.json, in the table's order. `port` is the port
concerned, `bank` the bank. `clocked` counts bytes the master clocks: in a frame command, the bytes it clocks after
the end of the frame and before the next command of this port. TRANSACTION_START, DESELECT and SELECT_HOLD_LIMIT carry the
bytes themselves, for they may be bytes of a frame that is not complete (log 6). -/
inductive Instr where
  /-- POWER_ON_RESET: power is applied (R20). -/
  | powerOnReset
  /-- DEVICE_RESET: RSTIN becomes active (R18). -/
  | deviceReset
  /-- START_UP_BEGIN: power is stable and RSTIN inactive (R140); the straps as sampled, true for high (R141). -/
  | startUpBegin (admsel1 admsel0 : Bool)
  /-- LOAD_COMPLETE: the configuration load completes (R142). -/
  | loadComplete
  /-- TRANSACTION_START: the port's select goes active (R145), and the first bytes of its frame are clocked. -/
  | transactionStart (start : TransactionStart)
  /-- UNKNOWN_OPENER: the first byte names no transaction kind (R146). -/
  | unknownOpener (port : Port) (opener : Byte) (clocked : Nat)
  /-- DESELECT: the port's select goes inactive (R151, R152); the further bytes clocked before it. -/
  | deselect (port : Port) (bytes : List Byte)
  /-- SELECT_HOLD_LIMIT: the select has stayed active for 50 ms (R153); the further bytes clocked before it. -/
  | selectHoldLimit (port : Port) (bytes : List Byte)
  /-- DIRECT_READ: the address is complete (R84, R86). -/
  | directRead (port : Port) (address : LogicalAddress) (clocked : Nat)
  /-- SUBMIT: the frame is complete (R44). -/
  | submit (port : Port) (frame : SubmitFrame) (clocked : Nat)
  /-- FETCH: the opener is taken (R55). -/
  | fetch (port : Port) (clocked : Nat)
  /-- READ_STATUS: the opener is taken (R156). -/
  | readStatus (port : Port) (clocked : Nat)
  /-- READ_PEER_STATUS: the target byte is taken (R157). -/
  | readPeerStatus (port : Port) (target : Byte) (clocked : Nat)
  /-- WRITE_ENABLE: the check byte is taken (R57). -/
  | writeEnable (port : Port) (check : Byte) (clocked : Nat)
  /-- WRITE_DISABLE: the check byte is taken (R57). -/
  | writeDisable (port : Port) (check : Byte) (clocked : Nat)
  /-- CLEAR_EVENTS: the check byte is taken; the set of events to clear (R160). -/
  | clearEvents (port : Port) (events : Byte) (check : Byte) (clocked : Nat)
  /-- SET_EVENT_ENABLES: the check byte is taken; the new enable set (R162). -/
  | setEventEnables (port : Port) (enables : Byte) (check : Byte) (clocked : Nat)
  /-- CLEAR_CAUSES: the check byte is taken; the set of cause flags to clear (R165). -/
  | clearCauses (port : Port) (causes : Byte) (check : Byte) (clocked : Nat)
  /-- CONFIRM_BOOT: the check byte is taken (R118). -/
  | confirmBoot (port : Port) (check : Byte) (clocked : Nat)
  /-- SERVICE: the check byte is taken; the service code (R121). -/
  | service (port : Port) (code : Byte) (check : Byte) (clocked : Nat)
  /-- RESTART: the check byte is taken (R123). -/
  | restart (port : Port) (check : Byte) (clocked : Nat)
  /-- PRESENTATION: the oldest queued request becomes current (R48). -/
  | presentation (port : Port)
  /-- DEADLINE_EXPIRY: a request's deadline timer runs out (R51). -/
  | deadlineExpiry (port : Port) (request : Timed)
  /-- READ_GRANT: the bank's search grants a read candidate (R70). -/
  | readGrant (bank : BankId)
  /-- WRITE_GRANT: the bank's search grants a write candidate (R71). -/
  | writeGrant (bank : BankId)
  /-- WRITE_START: a STARTING write begins (R9). -/
  | writeStart (bank : BankId)
  /-- SUSPEND_COMPLETE: a SUSPENDING erase has paused (R13). -/
  | suspendComplete (bank : BankId)
  /-- RESUME: a SUSPENDED erase resumes (R14). -/
  | resume (bank : BankId)
  /-- READ_COMPLETE: the read in the read slot ends (R7). -/
  | readComplete (bank : BankId)
  /-- PROGRAM_COMPLETE: a program ends (R10). -/
  | programComplete (bank : BankId)
  /-- SECTOR_ERASE_COMPLETE: a sector erase ends (R11). -/
  | sectorEraseComplete (bank : BankId)
  /-- PULSE_RELEASE: 10 ms have passed since the last pulse start (R112). -/
  | pulseRelease (port : Port)
  /-- BOOT_TIMER_EXPIRY: the boot timer has run its full period (R115, R116). -/
  | bootTimerExpiry (port : Port)
  /-- WATCHDOG_HALF: half the watchdog period has passed (R120). -/
  | watchdogHalf (port : Port)
  /-- WATCHDOG_EXPIRY: the watchdog has run its full period (R122). -/
  | watchdogExpiry (port : Port)
  /-- CONFIGURATION_WRITE_BEGIN: a write of the configuration block begins (R134). -/
  | configurationWriteBegin
  /-- CONFIGURATION_WRITE_COMPLETE: the write in progress has been stored (R137). -/
  | configurationWriteComplete
  /-- LOSS_OF_POWER: power fails (R18). -/
  | lossOfPower
  deriving DecidableEq, Repr

end Sys2Proof
end

