-- ==== Sys2Proof/Decode.lean ====
section
/-! DEFINITION. The code tables of the wire that name transaction kinds (Table 9-1), and the host's question about
opcode words: the table gives no row bits, so no word spells a command (log 22). -/

namespace Sys2Proof

/-- Table 9-1: the opener of each transaction kind (R146). -/
def TransactionKind.opener : TransactionKind → Byte
  | .directRead => 0x31
  | .submit => 0x52
  | .fetch => 0x53
  | .readStatus => 0x54
  | .readPeerStatus => 0x55
  | .writeEnable => 0x61
  | .writeDisable => 0x62
  | .clearEvents => 0x63
  | .setEventEnables => 0x64
  | .clearCauses => 0x65
  | .confirmBoot => 0x71
  | .service => 0x72
  | .restart => 0x73

/-- The thirteen kinds in the order of Table 9-1. -/
def TransactionKind.all : List TransactionKind :=
  [.directRead, .submit, .fetch, .readStatus, .readPeerStatus, .writeEnable, .writeDisable, .clearEvents,
   .setEventEnables, .clearCauses, .confirmBoot, .service, .restart]

/-- R145, R146: the kind that an opener names, if any. -/
def TransactionKind.ofOpener (b : Byte) : Option TransactionKind := TransactionKind.all.find? fun k => k.opener == b

/-- Whether an opener names one of the thirteen transaction kinds (R146). -/
def knownOpener (b : Byte) : Bool := TransactionKind.all.any (fun k => k.opener == b)

/-- R145: the transaction kind that the bytes taken so far give: none before the opener is complete. -/
def kindOfFrame (bytes : List Byte) : Option TransactionKind := bytes.head?.bind TransactionKind.ofOpener

/-- Table 9-2, R148: the length of the frame of a kind, as far as the bytes taken so far give it: a SUBMIT whose payload
length has not been taken has at least 11 bytes, and one whose payload length is above 256 ends with that field. -/
def TransactionKind.frameLength (k : TransactionKind) (bytes : List Byte) : Nat :=
  match k with
  | .directRead => 4
  | .submit =>
    if bytes.length < 10 then 11
    else
      let payload := (bytes.getD 8 0).toNat * 256 + (bytes.getD 9 0).toNat
      if payload ≤ 256 then 11 + payload else 10
  | .fetch | .readStatus => 1
  | .readPeerStatus | .writeEnable | .writeDisable | .confirmBoot | .restart => 2
  | .clearEvents | .setEventEnables | .clearCauses | .service => 3

/-- R147, R152: whether the bytes taken from the start of a transaction leave its frame unfinished. -/
def frameUnfinished (bytes : List Byte) : Bool :=
  match kindOfFrame bytes with
  | none => bytes.isEmpty
  | some k => decide (bytes.length < k.frameLength bytes)

/-- R148: a payload length above 256 ends the frame with the header; otherwise the frame carries that many payload
bytes. Whether the frame's parts fit its payload length. -/
def SubmitFrame.delimited (f : SubmitFrame) : Bool :=
  if f.payloadLength.toNat ≤ 256 then f.payload.length == f.payloadLength.toNat else f.payload.isEmpty

/-- The command that a word of the opcode table spells. No row of spec/opcode_table.json has bits, so there is none
(log 22). -/
def decodeTableWord (_nbits _w : Nat) : Option Instr := none

end Sys2Proof
end

