-- ==== Sys2Proof/Machine/State.lean ====
section
/-! DEFINITION. The state of the part as plain data, block by block as the manual divides it, and the state right
after power-on reset. -/

namespace Sys2Proof.Machine

open Sys2Proof

/-! ## Region Map (Chapter 2) -/

/-- A region number 0 to 15 (R21). -/
abbrev RegionId := Fin 16

/-- A run of whole sectors (R21, R97). -/
structure SectorRange where
  first : Nat
  count : Nat
  deriving DecidableEq, Repr

/-- Access levels (R28, Table 2-5). -/
inductive Level where
  | none | read | write | full
  deriving DecidableEq, Repr

/-- A region table entry (R21). An UNUSED entry has no range and all four levels NONE; an entry in use is OPEN, or
LOCKED where `locked` is true. -/
inductive RegionEntry where
  | unused
  | inUse (locked : Bool) (range : SectorRange) (access : Vector Level 4)
  deriving DecidableEq, Repr

/-! ## Requests and completions (Chapter 3) -/

/-- The sixteen request kinds of Table 3-2 (R43). -/
inductive RequestKind where
  | read | program | eraseSector | eraseRegion | verify | armTrial
  | defineRegion | clearRegion | setAccess | bindView | lockRegion
  | setBoot | setPort | resetMaster | flushPort | storeConfig
  deriving DecidableEq, Repr

/-- A request record (R42, Table 3-1). -/
structure Request where
  kind : RequestKind
  tag : Byte
  address : LogicalAddress
  count : Nat
  payload : List Byte
  deriving DecidableEq, Repr

/-- A timer: stopped, or running; `ms` is the period it was started for. What is left of it is not counted down: that
it runs out is a command (log 3). -/
inductive Timer where
  | stopped
  | running (ms : Nat)
  deriving DecidableEq, Repr

/-- An accepted request that has not been presented (R47). -/
structure Queued where
  request : Request
  timer : Timer
  expired : Bool
  deriving DecidableEq, Repr

/-- The two slots of a supervised port (R27, R109). -/
inductive Slot where
  | a | b
  deriving DecidableEq, Repr

/-- What an ARM_TRIAL's verify record holds beside a VERIFY's (R97). -/
structure Arming where
  target : Port
  slot : Slot
  region : RegionId
  digest : Word
  deriving DecidableEq, Repr

/-- A verify record (R97). -/
structure VerifyRecord where
  range : SectorRange
  next : Nat
  running : Word
  disturbed : Bool
  arm : Option Arming
  deriving DecidableEq, Repr

/-- The current request of a port (R48) with its deadline timer (R51), the range an ERASE_REGION carries from its
presentation (R29, R79) and the verify record of a VERIFY or ARM_TRIAL (R97). -/
structure Current where
  request : Request
  timer : Timer
  range : Option SectorRange
  verify : Option VerifyRecord
  deriving DecidableEq, Repr

/-- Completion statuses (R53); `writeProtected` is PROTECTED. -/
inductive Status where
  | done | denied | writeProtected | range | notAdmin | expired | disturbed | mismatch | conflict
  deriving DecidableEq, Repr

/-- A completion record (R53). Its count is the length of its data. -/
structure Completion where
  tag : Byte
  kind : RequestKind
  status : Status
  wrapped : Bool
  data : List Byte
  deriving DecidableEq, Repr

/-- Deadline settings (R58). -/
inductive Deadline where
  | off | ms10 | ms100 | s1
  deriving DecidableEq, Repr

/-- A port settings record (R58). -/
structure Settings where
  checkRequired : Bool
  deadline : Deadline
  deriving DecidableEq, Repr

/-! ## Bank Controllers (Chapters 1 and 4) -/

/-- The owner of an operation at a bank (Table 1-4). -/
inductive Owner where
  | port (p : Port)
  | orphan
  deriving DecidableEq, Repr

/-- Kinds of read operation (Table 1-4). -/
inductive ReadKind where
  | read | verifyChunk
  deriving DecidableEq, Repr

/-- A read operation record (Table 1-4). -/
structure ReadOperation where
  owner : Owner
  kind : ReadKind
  first : Nat
  length : Nat
  deriving DecidableEq, Repr

/-- The kind and target of a write operation (Table 1-4): a page by its first address, the starting offset in it and
the data bytes; or a sector. -/
inductive WriteTarget where
  | program (page start : Nat) (data : List Byte)
  | sectorErase (sector : Nat)
  deriving DecidableEq, Repr

/-- A write operation record (Table 1-4). -/
structure WriteOperation where
  owner : Owner
  target : WriteTarget
  chunk : Option Nat
  deriving DecidableEq, Repr

/-- The states of an occupied write slot (Table 1-5). -/
inductive WriteState where
  | starting | programming | erasing | suspending | suspended
  deriving DecidableEq, Repr

/-- The write slot: NONE with no record, or a state with a record (Table 1-3). -/
inductive WriteSlot where
  | none
  | busy (state : WriteState) (op : WriteOperation)
  deriving DecidableEq, Repr

/-- The operation and target of a candidate entry (Table 4-1). -/
inductive CandidateTarget where
  | read (first length : Nat)
  | verifyChunk (sector : Nat)
  | program (page start : Nat) (data : List Byte)
  | sectorErase (sector : Nat)
  deriving DecidableEq, Repr

/-- A candidate entry (Table 4-1); its port is its place in the set. `granted` is the field "first grant taken". -/
structure Candidate where
  target : CandidateTarget
  chunk : Option Nat
  granted : Bool
  deriving DecidableEq, Repr

/-- A Bank Controller (R6, Table 1-3). -/
structure Bank where
  readSlot : Option ReadOperation
  writeSlot : WriteSlot
  openStreams : Nat
  suspendCount : Nat
  pointer : Port
  candidates : Vector (Option Candidate) 4
  digest : Option Word
  deriving DecidableEq, Repr

/-! ## Streams and transactions (Chapters 5 and 9) -/

/-- An open direct-read stream (R88). -/
structure Stream where
  bank : BankId
  base : Nat
  size : Nat
  next : Nat
  deriving DecidableEq, Repr

/-- What the deselect of a complete, uncut frame does (R151). A refused or bare transaction has `nothing`. -/
inductive Effect where
  | nothing
  | accept (r : Request)
  | setLatch
  | clearLatch
  | clearEvents (set : Byte)
  | setEnables (set : Byte)
  | clearCauses (set : Byte)
  | confirmBoot
  | service (code : Byte)
  | restart
  /-- A FETCH that chose the head record of this many bytes (R55), or the empty record. -/
  | fetched (whole : Option Nat)
  /-- A DIRECT_READ answered GO: its stream follows the marker (R88). -/
  | stream
  deriving DecidableEq, Repr

/-- The decision made at the end of a frame (R145, R150): the bytes of the answer, with the acknowledgement, the marker or
the chosen record among them (data of a stream and filler follow them), and the effect to be taken at the deselect. -/
structure Decision where
  answer : List Byte
  effect : Effect
  deriving DecidableEq, Repr

/-- The transaction in progress at a port (R145): its kind, none before the opener is complete; the bytes of its frame
taken so far; the number of bytes taken so far, those after the frame included; the hold timer; the cut mark; the
decision once made. `ignored` marks one that is not framed (R155), whose kind stays none. `silenced` is set where the part
sends 0xFF for the rest of a transaction that a FLUSH_PORT has overtaken (R56, R92). -/
structure Transaction where
  ignored : Bool
  cut : Bool
  silenced : Bool
  kind : Option TransactionKind
  frame : List Byte
  taken : Nat
  holdTimer : Timer
  decision : Option Decision
  deriving DecidableEq, Repr

/-! ## Boot Supervisor (Chapter 7) -/

/-- Boot periods (Table 7-1). -/
inductive BootPeriod where
  | ms250 | ms500 | s1 | s2 | s4 | s8 | s16 | s32
  deriving DecidableEq, Repr

/-- Watchdog periods (Table 7-1). -/
inductive WatchdogPeriod where
  | off | ms100 | ms250 | ms500 | s1 | s2 | s4 | s8
  deriving DecidableEq, Repr

/-- Boot states (Table 7-2). -/
inductive BootState where
  | off | held | trial | unconfirmed | running | failed
  deriving DecidableEq, Repr

/-- The stored fields of a boot record (Table 7-1, R131). -/
structure StoredBoot where
  enabled : Bool
  slotA : RegionId
  slotB : RegionId
  active : Slot
  attemptLimit : Nat
  bootPeriod : BootPeriod
  watchdogPeriod : WatchdogPeriod
  deriving DecidableEq, Repr

/-- The two service codes, 0x96 and 0x69 (R121). -/
inductive ServiceCode where
  | x96 | x69
  deriving DecidableEq, Repr

/-- The watchdog timer: stopped, or running with whether its half has passed (Table 7-1). -/
inductive Watchdog where
  | stopped
  | running (ms : Nat) (halfPassed : Bool)
  deriving DecidableEq, Repr

/-! ## One port: Port Interface, Request Queue, view, boot record and event flags -/

/-- Everything the part holds for one port. -/
structure PortState where
  /-- Whether the port's select line is active (R145, R173). -/
  selected : Bool
  /-- The transaction in progress (R145). -/
  transaction : Option Transaction
  /-- MODEL's own (log 7): the bytes the part has sent in the port's latest transaction. -/
  sdo : List Byte
  /-- The write-enable latch (R57). -/
  latch : Bool
  /-- The open stream (R88). -/
  stream : Option Stream
  /-- The request queue, oldest first (R47). -/
  queue : List Queued
  /-- The current request (R48). -/
  current : Option Current
  /-- The completion list, oldest first (R54). -/
  completions : List Completion
  /-- The settings record (R58). -/
  settings : Settings
  /-- The four window bindings (R24). -/
  windows : Vector (Option RegionId) 4
  /-- The sticky events present; bit 0, COMPLETION, is never stored here (R158). -/
  sticky : Byte
  /-- The event enables (R162). -/
  enables : Byte
  /-- The reset-cause flags (R164). -/
  causes : Byte
  /-- The stored fields of the boot record (R109). -/
  boot : StoredBoot
  /-- The trial slot (R103). -/
  trial : Option Slot
  /-- The attempts used (R116). -/
  attempts : Nat
  /-- The boot state (Table 7-2). -/
  bootState : BootState
  /-- The expected service code (R120). -/
  expected : ServiceCode
  /-- The boot timer (R114). -/
  bootTimer : Timer
  /-- The watchdog timer (R120). -/
  watchdog : Watchdog
  /-- The reset pulse, running while it is in progress (R110). -/
  pulse : Timer
  deriving DecidableEq, Repr

/-! ## Configuration Store, STLED and the whole part -/

/-- The stored fields of a configuration image (R131, Table 8-1). -/
structure ConfigImage where
  regions : Vector RegionEntry 16
  windows : Vector (Vector (Option RegionId) 4) 4
  boot : Vector StoredBoot 4
  settings : Vector Settings 4
  deriving DecidableEq, Repr

/-- An image as the block holds it: the stored fields, followed by the check value (R131, Table 8-1). -/
structure StoredImage where
  image : ConfigImage
  check : Word
  deriving DecidableEq, Repr

/-- The writer (R133): IDLE where `snapshot` is none, WRITING with the snapshot taken otherwise. -/
structure Writer where
  snapshot : Option ConfigImage
  commitPending : Bool
  waiting : Bool
  carried : Bool
  deriving DecidableEq, Repr

/-- The start-up state (R140). `resetTaken` and `loading` are STARTING_UP, before and after the sequence has begun;
`unpowered` is the part after loss of power (log 13). -/
inductive StartUp where
  | unpowered | resetTaken | loading | ready
  deriving DecidableEq, Repr

/-- What STLED shows (Table 7-3). -/
inductive LedDisplay where
  | off | steady | blink1Hz | blink4Hz
  deriving DecidableEq, Repr

/-- STLED: what it shows and the level it began with when that display began (R129, log 20). -/
structure StatusLed where
  display : LedDisplay
  lit : Bool
  deriving DecidableEq, Repr

/-- The flash array: cells by rising address, none equal to what an unlisted address reads as (log 9). -/
abbrev Memory := List Host.Cell

/-- The state of the part. -/
structure State where
  /-- The flash array (R1, R2): the cells that differ from 0xFF, by rising address (log 9). -/
  array : Memory
  /-- MODEL's own (log 8): how many free bytes have been drawn. -/
  freeCount : Nat
  /-- The two Bank Controllers (R6). -/
  banks : Vector Bank 2
  /-- The region table (R21). -/
  regions : Vector RegionEntry 16
  /-- The four ports. -/
  ports : Vector PortState 4
  /-- The administrator port (R141). -/
  admin : Port
  /-- The start-up state (R140). -/
  startUp : StartUp
  /-- The configuration block: at most one image with its check value (R131); none where nothing was ever stored, where
  a write is in progress and where one was cut (R132, R134, R139, log 14). -/
  block : Option StoredImage
  /-- The writer (R133). -/
  writer : Writer
  /-- STLED (R129). -/
  led : StatusLed
  /-- The commands waiting, first in, first out (log 1). -/
  pending : List Instr
  deriving DecidableEq, Repr

/-- The machine has no fault that stops it (INVENTORY.md, Faults): no constructor. -/
inductive Fault where
  deriving DecidableEq, Repr

/-- Refusals of the model. -/
inductive Refusal where
  /-- Raised by no arm of exec now: it would name a command that has no meaning yet. Safe: the model stops. -/
  | notModelled (mnemonic : String)
  deriving DecidableEq, Repr

/-! ## Reset -/

/-- A Bank Controller after power-on reset and device reset (R20). -/
def Bank.reset : Bank :=
  ⟨none, .none, 0, 0, 0, #v[none, none, none, none], none⟩

/-- The default stored fields of a boot record (R143); also what a record holds between a reset and the load
(log 10). -/
def StoredBoot.initial : StoredBoot := ⟨false, 0, 1, .a, 3, .s4, .off⟩

/-- The default port settings (R58, R143); also what a record holds between a reset and the load (log 10). -/
def Settings.initial : Settings := ⟨true, .off⟩

/-- A port after a reset whose cause flags are `causes` (R57, R62, R88, R109, R145, R166; windows, boot record and
settings before the load: log 10). -/
def PortState.reset (causes : Byte) : PortState where
  selected := false
  transaction := none
  sdo := []
  latch := false
  stream := none
  queue := []
  current := none
  completions := []
  settings := Settings.initial
  windows := #v[none, none, none, none]
  sticky := 0
  enables := 0
  causes := causes
  boot := StoredBoot.initial
  trial := none
  attempts := 0
  bootState := .off
  expected := .x96
  bootTimer := .stopped
  watchdog := .stopped
  pulse := .stopped

/-- The writer after power-on reset and device reset (R133). -/
def Writer.reset : Writer := ⟨none, false, false, false⟩

/-- The part right after power-on reset, as delivered: nothing written to the array or the block (log 9, 10, 11, 12);
cause flags POWER_ON alone (R166); STLED steady on (R129, R140). -/
def State.reset : State where
  array := []
  freeCount := 0
  banks := #v[Bank.reset, Bank.reset]
  regions := Vector.replicate 16 .unused
  ports := #v[PortState.reset 0x01, PortState.reset 0x01, PortState.reset 0x01, PortState.reset 0x01]
  admin := 0
  startUp := .resetTaken
  block := none
  writer := Writer.reset
  led := ⟨.steady, true⟩
  pending := []

end Sys2Proof.Machine
end

