-- ==== Sys2Proof/Machine/Ops.lean ====
section
/-! DEFINITION. The named operations over the parts of the state: one port, one bank, the array, its unspecified
bytes, the range of a region, and the completion of a request. -/

namespace Sys2Proof.Machine

open Sys2Proof

/-! ## Ports, banks and entries -/

/-- The four ports in order. -/
def allPorts : List Port := [0, 1, 2, 3]

/-- The two banks in order. -/
def allBanks : List BankId := [0, 1]

/-- The sixteen region numbers in order. -/
def allRegions : List RegionId := [0, 1, 2, 3, 4, 5, 6, 7, 8, 9, 10, 11, 12, 13, 14, 15]

/-- What the part holds for port p. -/
def State.port (s : State) (p : Port) : PortState := s.ports[p]

/-- Port p's state replaced. -/
def State.setPort (s : State) (p : Port) (x : PortState) : State := { s with ports := s.ports.set p x }

/-- Port p's state changed by f. -/
def State.modPort (s : State) (p : Port) (f : PortState → PortState) : State := s.setPort p (f (s.port p))

/-- Bank b's controller. -/
def State.bank (s : State) (b : BankId) : Bank := s.banks[b]

/-- Bank b's controller replaced. -/
def State.setBank (s : State) (b : BankId) (x : Bank) : State := { s with banks := s.banks.set b x }

/-- Bank b's controller changed by f. -/
def State.modBank (s : State) (b : BankId) (f : Bank → Bank) : State := s.setBank b (f (s.bank b))

/-- Region table entry r (R21). -/
def State.region (s : State) (r : RegionId) : RegionEntry := s.regions[r]

/-- Region table entry r replaced. -/
def State.setRegion (s : State) (r : RegionId) (e : RegionEntry) : State := { s with regions := s.regions.set r e }

/-- Port p's candidate entry at a bank (R64). -/
def Bank.candidate (k : Bank) (p : Port) : Option Candidate := k.candidates[p]

/-- Port p's candidate entry at a bank replaced or removed (R65, R66). -/
def Bank.setCandidate (k : Bank) (p : Port) (c : Option Candidate) : Bank :=
  { k with candidates := k.candidates.set p c }

/-- The binding of window w of a port (R24). -/
def PortState.window (x : PortState) (w : Fin 4) : Option RegionId := x.windows[w]

/-- Window w of port p bound to a region or unbound (R24). -/
def State.setWindow (s : State) (p : Port) (w : Fin 4) (r : Option RegionId) : State :=
  s.modPort p fun x => { x with windows := x.windows.set w r }

/-! ## The array (Chapter 1) -/

/-- The value of the byte at an address: an unlisted address reads as 0xFF (R2, log 9). -/
def Memory.read : Memory → Nat → Byte
  | [], _ => Config.erasedByte
  | (k, v) :: rest, a => if k = a then v else Memory.read rest a

/-- One byte stored; the list stays in its canonical form. -/
def Memory.write : Memory → Nat → Byte → Memory
  | [], a, b => if b = Config.erasedByte then [] else [(a, b)]
  | (k, v) :: rest, a, b =>
    if a < k then
      if b = Config.erasedByte then (k, v) :: rest else (a, b) :: (k, v) :: rest
    else if a = k then
      if b = Config.erasedByte then rest else (a, b) :: rest
    else (k, v) :: Memory.write rest a b

/-- Every byte of a run of addresses set to 0xFF (R5). -/
def Memory.erase (m : Memory) (first length : Nat) : Memory :=
  m.filter fun c => !(decide (first ≤ c.1) && decide (c.1 < first + length))

/-- R3, R4: data bytes ANDed into a page from a starting offset, wrapping within the page. -/
def Memory.program (m : Memory) (page start : Nat) : List Byte → Memory
  | [] => m
  | d :: rest =>
    let a := page + start % Config.pageBytes
    Memory.program (m.write a (m.read a &&& d)) page (start + 1) rest

/-- R19: `length` bytes from an address take unspecified values, the free bytes from number `n` on. -/
def Memory.scramble (m : Memory) (first n : Nat) : Nat → Memory
  | 0 => m
  | length + 1 => Memory.scramble (m.write first (Config.freeByte n)) (first + 1) (n + 1) length

/-- The canonical form of the array: addresses strictly rising, no listed byte equal to 0xFF. -/
abbrev Memory.wf (m : Memory) : Prop :=
  m.Pairwise (fun c d => c.1 < d.1) ∧ ∀ c ∈ m, c.2 ≠ Config.erasedByte

/-- R1: the sector of an address. -/
def sectorOf (a : Nat) : Nat := a / Config.sectorBytes

/-- R1: the first address of the page of an address. -/
def pageOf (a : Nat) : Nat := a - a % Config.pageBytes

/-- R1: the offset of an address within its page. -/
def pageOffset (a : Nat) : Nat := a % Config.pageBytes

/-- R1: the bank of a sector. -/
def bankOfSector (sector : Nat) : BankId := if sector < Config.bankSectors then 0 else 1

/-! ## Sector ranges (R21) -/

/-- The first physical address of a range. -/
def SectorRange.base (r : SectorRange) : Nat := r.first * Config.sectorBytes

/-- The size of a range in bytes. -/
def SectorRange.size (r : SectorRange) : Nat := r.count * Config.sectorBytes

/-- Whether a sector lies in a range. -/
def SectorRange.contains (r : SectorRange) (sector : Nat) : Bool :=
  decide (r.first ≤ sector) && decide (sector < r.first + r.count)

/-- The bank of a range (R22). -/
def SectorRange.bank (r : SectorRange) : BankId := bankOfSector r.first

/-- Whether two ranges share a sector. -/
def SectorRange.overlaps (r q : SectorRange) : Bool :=
  decide (r.first < q.first + q.count) && decide (q.first < r.first + r.count)

/-- R22, R34: a range of 1 to 1024 sectors that ends at sector 2047 or below and lies within one bank. -/
def SectorRange.legal (r : SectorRange) : Bool :=
  decide (1 ≤ r.count) && decide (r.count ≤ Config.bankSectors)
    && decide (r.first + r.count ≤ Config.sectorCount)
    && (bankOfSector r.first == bankOfSector (r.first + r.count - 1))

/-- The range of an entry in use. -/
def RegionEntry.range? : RegionEntry → Option SectorRange
  | .unused => none
  | .inUse _ range _ => some range

/-- Whether an entry is in use (R21). -/
def RegionEntry.isInUse (e : RegionEntry) : Bool := e.range?.isSome

/-- Port p's level to an entry; an UNUSED entry has all levels NONE (R21). -/
def RegionEntry.level (e : RegionEntry) (p : Port) : Level :=
  match e with
  | .unused => .none
  | .inUse _ _ access => access[p]

/-! ## Operations at a bank -/

/-- The sector a write takes (R32): the page's sector for a program, the sector of an erase. -/
def WriteTarget.sector : WriteTarget → Nat
  | .program page _ _ => sectorOf page
  | .sectorErase sector => sector

/-- R2: the sector whose erase has started and not ended at a bank, if any. -/
def Bank.sectorUnderErase (k : Bank) : Option Nat :=
  match k.writeSlot with
  | .busy .erasing ⟨_, .sectorErase sector, _⟩ => some sector
  | .busy .suspending ⟨_, .sectorErase sector, _⟩ => some sector
  | .busy .suspended ⟨_, .sectorErase sector, _⟩ => some sector
  | _ => none

/-- R2: whether a byte of the array reads as unspecified. -/
def State.underErase (s : State) (a : Nat) : Bool :=
  (s.bank (bankOfSector (sectorOf a))).sectorUnderErase == some (sectorOf a)

/-- R2: the byte values read at a list of addresses, with the count of free bytes drawn so far going in and out: the
stored value, or a fresh free byte where the byte is under erase (log 8). -/
def State.sample (s : State) : List Nat → Nat → List Byte × Nat
  | [], n => ([], n)
  | a :: rest, n =>
    if s.underErase a then
      let r := s.sample rest (n + 1)
      (Config.freeByte n :: r.1, r.2)
    else
      let r := s.sample rest n
      (s.array.read a :: r.1, r.2)

/-! ## Requests -/

/-- R46: the credits in use at a port: requests queued, the current request and completions waiting. -/
def PortState.creditsInUse (x : PortState) : Nat :=
  x.queue.length + (if x.current.isSome then 1 else 0) + x.completions.length

/-- R46: the credits free at a port. -/
def PortState.creditsFree (x : PortState) : Nat := Config.credits - x.creditsInUse

/-- R50: the current request of port p completes: its record joins the tail of the completion list (R53) and the port
has no current request. Nothing happens where the port has none. -/
def State.complete (s : State) (p : Port) (status : Status) (wrapped : Bool) (data : List Byte) : State :=
  match (s.port p).current with
  | none => s
  | some cur =>
    s.modPort p fun x =>
      { x with
        current := none
        completions := x.completions ++ [⟨cur.request.tag, cur.request.kind, status, wrapped, data⟩] }

/-- R50, R53: a completion that carries no data and no WRAPPED flag. -/
def State.completeBare (s : State) (p : Port) (status : Status) : State := s.complete p status false []

/-- R51: the deadline timer of port p's current request stops. -/
def State.stopDeadline (s : State) (p : Port) : State :=
  s.modPort p fun x => { x with current := x.current.map fun c => { c with timer := .stopped } }

/-! ## Times (Table 7-1, Table 11-8) -/

/-- The deadline timer a request takes at its acceptance (R51). -/
def Deadline.timer : Deadline → Timer
  | .off => .stopped
  | .ms10 => .running 10
  | .ms100 => .running 100
  | .s1 => .running 1000

/-- Boot periods in milliseconds. -/
def BootPeriod.ms : BootPeriod → Nat
  | .ms250 => 250
  | .ms500 => 500
  | .s1 => 1000
  | .s2 => 2000
  | .s4 => 4000
  | .s8 => 8000
  | .s16 => 16000
  | .s32 => 32000

/-- R120: the watchdog as started for a full period, or stopped where the period is OFF. -/
def WatchdogPeriod.start : WatchdogPeriod → Watchdog
  | .off => .stopped
  | .ms100 => .running 100 false
  | .ms250 => .running 250 false
  | .ms500 => .running 500 false
  | .s1 => .running 1000 false
  | .s2 => .running 2000 false
  | .s4 => .running 4000 false
  | .s8 => .running 8000 false

/-- Whether a timer runs. -/
def Timer.isRunning : Timer → Bool
  | .stopped => false
  | .running _ => true

/-- Whether the watchdog runs. -/
def Watchdog.isRunning : Watchdog → Bool
  | .stopped => false
  | .running _ _ => true

/-! ## Boot records -/

/-- The slot that is not this one (R27). -/
def Slot.other : Slot → Slot
  | .a => .b
  | .b => .a

/-- The region of a slot (R109). -/
def StoredBoot.slot (r : StoredBoot) : Slot → RegionId
  | .a => r.slotA
  | .b => r.slotB

/-- The region of the active slot. -/
def StoredBoot.activeRegion (r : StoredBoot) : RegionId := r.slot r.active

/-- The region of the alternate slot. -/
def StoredBoot.alternateRegion (r : StoredBoot) : RegionId := r.slot r.active.other

/-- R121: the expectation flips. -/
def ServiceCode.flip : ServiceCode → ServiceCode
  | .x96 => .x69
  | .x69 => .x96

/-- The byte of a service code (R171). -/
def ServiceCode.byte : ServiceCode → Byte
  | .x96 => 0x96
  | .x69 => 0x69

/-- R140: the part is STARTING_UP. -/
def StartUp.isStartingUp : StartUp → Bool
  | .resetTaken => true
  | .loading => true
  | .unpowered => false
  | .ready => false

end Sys2Proof.Machine
end

