-- ==== Sys2Proof/Machine/Flags.lean ====
section
/-! DEFINITION. Event sets, cause sets, the two CRCs, and the lines computed from the state: ATTN, MRST and STLED. -/

namespace Sys2Proof.Machine

open Sys2Proof

/-! ## Events and causes (R158, R164, R171) -/

/-- The eight events of Table 10-1. -/
inductive Event where
  | completion | frameAbort | configEdit | bootFallback | watchdogHalf | storeDone | configDefaulted | peerFailed
  deriving DecidableEq, Repr

/-- R171: the bit of an event in an event set. -/
def Event.mask : Event → Byte
  | .completion => 0x01
  | .frameAbort => 0x02
  | .configEdit => 0x04
  | .bootFallback => 0x08
  | .watchdogHalf => 0x10
  | .storeDone => 0x20
  | .configDefaulted => 0x40
  | .peerFailed => 0x80

/-- The eight reset-cause flags of Table 10-2. -/
inductive Cause where
  | powerOn | deviceReset | bootTimeout | trialTimeout | watchdog | badService | selfRestart | adminReset
  deriving DecidableEq, Repr

/-- R171: the bit of a flag in a cause set. -/
def Cause.mask : Cause → Byte
  | .powerOn => 0x01
  | .deviceReset => 0x02
  | .bootTimeout => 0x04
  | .trialTimeout => 0x08
  | .watchdog => 0x10
  | .badService => 0x20
  | .selfRestart => 0x40
  | .adminReset => 0x80

/-- R159: a sticky event is set at port p; set again, it stays set. -/
def State.raise (s : State) (p : Port) (e : Event) : State :=
  s.modPort p fun x => { x with sticky := x.sticky ||| e.mask }

/-- R164: a cause flag is set at port p; the others stay as they are. -/
def State.setCause (s : State) (p : Port) (c : Cause) : State :=
  s.modPort p fun x => { x with causes := x.causes ||| c.mask }

/-- R160: the named sticky events become absent; naming COMPLETION has no effect, for it is not stored. -/
def State.clearSticky (s : State) (p : Port) (set : Byte) : State :=
  s.modPort p fun x => { x with sticky := x.sticky &&& ~~~set }

/-- R158: the event status of a port: its sticky events, and COMPLETION while its completion list is not empty. -/
def PortState.eventStatus (x : PortState) : Byte :=
  if x.completions.isEmpty then x.sticky else x.sticky ||| Event.completion.mask

/-- Whether a sticky event is present in a port's event status. -/
def PortState.hasSticky (x : PortState) (e : Event) : Bool := (x.sticky &&& e.mask) != 0

/-- R163: ATTNp is asserted while the event status and the enable set have an event in common. -/
def State.attnAsserted (s : State) (p : Port) : Bool :=
  ((s.port p).eventStatus &&& (s.port p).enables) != 0

/-- R113: MRSTp is asserted exactly while the part is starting up, while p's pulse lasts, or while p is FAILED. -/
def State.mrstAsserted (s : State) (p : Port) : Bool :=
  s.startUp.isStartingUp || (s.port p).pulse.isRunning || (s.port p).bootState == .failed

/-! ## STLED (R129) -/

/-- Whether any port is in a given boot state. -/
def State.anyInState (s : State) (t : BootState) : Bool := allPorts.any fun p => (s.port p).bootState == t

/-- R129, Table 7-3: the most severe condition that holds; off without power (log 13). -/
def State.ledCondition (s : State) : LedDisplay :=
  if s.startUp == .unpowered then .off
  else if s.startUp.isStartingUp then .steady
  else if s.anyInState .failed then .steady
  else if allPorts.any (fun p => (s.port p).hasSticky .bootFallback) then .blink4Hz
  else if s.anyInState .trial || s.anyInState .unconfirmed then .blink1Hz
  else .off

/-- R129: the condition is taken again; a display that changes begins lit unless it is off, and one that does not
change runs on as it was (log 20). -/
def State.refreshLed (s : State) : State :=
  if s.ledCondition = s.led.display then s
  else { s with led := ⟨s.ledCondition, s.ledCondition != .off⟩ }

/-! ## Pins (R173) -/

/-- What an output pin shows: driven low, driven high, or floating. -/
inductive PinLevel where
  | low | high | floating
  deriving DecidableEq, Repr

/-- R173: MRSTp is driven low while it is asserted and high otherwise; without power nothing is driven (log 13). -/
def State.mrstPin (s : State) (p : Port) : PinLevel :=
  if s.startUp = .unpowered then .floating else if s.mrstAsserted p then .low else .high

/-- R173: ATTNp is pulled low while it is asserted and floats otherwise; without power nothing is driven (log 13). -/
def State.attnPin (s : State) (p : Port) : PinLevel :=
  if s.startUp = .unpowered then .floating else if s.attnAsserted p then .low else .floating

/-- R129, R173: STLED is driven high for on; for off it is driven low, where R173 states no level (DESIGN CHOICE, log 34).
While it blinks this is the level that the blink began with (log 20); without power nothing is driven (log 13). -/
def State.stledPin (s : State) : PinLevel :=
  if s.startUp = .unpowered then .floating else if s.led.lit then .high else .low

/-- R173: the data-out line of port p is driven while its select is active, an ignored transaction's too, and floats
otherwise; without power nothing is driven (log 13). -/
def State.sdoDriven (s : State) (p : Port) : Bool := decide (s.startUp ≠ .unpowered) && (s.port p).selected

/-! ## CRC-32 (R96) and CRC-8 (R149) -/

/-- R96: one shift of the digest register. -/
def crc32Shift (r : Word) : Word := if r.getLsbD 0 then (r >>> 1) ^^^ 0xEDB88320 else r >>> 1

/-- R96: one byte through the digest register. -/
def crc32Byte (r : Word) (b : Byte) : Word :=
  let r := r ^^^ b.setWidth 32
  let r := crc32Shift (crc32Shift (crc32Shift (crc32Shift r)))
  crc32Shift (crc32Shift (crc32Shift (crc32Shift r)))

/-- R96: bytes through the digest register, in order. -/
def crc32Bytes (r : Word) (bytes : List Byte) : Word := bytes.foldl crc32Byte r

/-- R96: the register before the first byte. -/
def crc32Start : Word := 0xFFFFFFFF

/-- R96: the digest formed from the register after the last byte. -/
def crc32Finish (r : Word) : Word := ~~~r

/-- R149: one shift of the check register. -/
def crc8Shift (r : Byte) : Byte := if r.msb then (r <<< 1) ^^^ 0x07 else r <<< 1

/-- R149: one byte through the check register. -/
def crc8Byte (r : Byte) (b : Byte) : Byte :=
  let r := r ^^^ b
  let r := crc8Shift (crc8Shift (crc8Shift (crc8Shift r)))
  crc8Shift (crc8Shift (crc8Shift (crc8Shift r)))

/-- R149: the check byte of the bytes of a frame before it, the opener first. -/
def crc8 (bytes : List Byte) : Byte := bytes.foldl crc8Byte 0

/-- R149, R58: whether a frame passes its check at a port: the setting is off, or the check byte is the computed one
(log 15). -/
def PortState.checkPasses (x : PortState) (bytes : List Byte) (check : Byte) : Bool :=
  !x.settings.checkRequired || check == crc8 bytes

end Sys2Proof.Machine
end

