-- ==== Sys2Proof/Machine/Operands.lean ====
section
/-! DEFINITION. The byte forms of Chapter 11: codes, the well-formedness of a request record, payload fields, the bytes
of a completion record and of a status snapshot. -/

namespace Sys2Proof.Machine

open Sys2Proof

/-! ## Codes (R172, Table 11-6) -/

/-- Acknowledgements (R150). -/
inductive Ack where
  | accepted | full | badCheck | badFrame | noLatch | done | refused
  deriving DecidableEq, Repr

/-- Table 11-6: the code of an acknowledgement. -/
def Ack.code : Ack → Byte
  | .accepted => 0xA0
  | .full => 0xA1
  | .badCheck => 0xA2
  | .badFrame => 0xA3
  | .noLatch => 0xA4
  | .done => 0xA5
  | .refused => 0xA6

/-- Stream markers (R84). -/
inductive Marker where
  | go | notReady | denied | range
  deriving DecidableEq, Repr

/-- Table 11-6: the code of a marker. -/
def Marker.code : Marker → Byte
  | .go => 0xD0
  | .notReady => 0xD1
  | .denied => 0xD2
  | .range => 0xD3

/-- Table 11-6: the code of a completion status. -/
def Status.code : Status → Byte
  | .done => 0x00
  | .denied => 0x01
  | .writeProtected => 0x02
  | .range => 0x03
  | .notAdmin => 0x04
  | .expired => 0x05
  | .disturbed => 0x06
  | .mismatch => 0x07
  | .conflict => 0x08

/-- Table 11-6: the code of a request kind. -/
def RequestKind.code : RequestKind → Byte
  | .read => 0x01
  | .program => 0x02
  | .eraseSector => 0x03
  | .eraseRegion => 0x04
  | .verify => 0x05
  | .armTrial => 0x06
  | .defineRegion => 0x10
  | .clearRegion => 0x11
  | .setAccess => 0x12
  | .bindView => 0x13
  | .lockRegion => 0x14
  | .setBoot => 0x15
  | .setPort => 0x16
  | .resetMaster => 0x17
  | .flushPort => 0x18
  | .storeConfig => 0x19

/-- The sixteen kinds in the order of Table 3-2. -/
def RequestKind.all : List RequestKind :=
  [.read, .program, .eraseSector, .eraseRegion, .verify, .armTrial, .defineRegion, .clearRegion, .setAccess,
   .bindView, .lockRegion, .setBoot, .setPort, .resetMaster, .flushPort, .storeConfig]

/-- R172: the kind a code names; 0x00 and every code not in the table name none. -/
def RequestKind.ofCode (b : Byte) : Option RequestKind := RequestKind.all.find? fun k => k.code == b

/-- Table 3-2: the kinds that only the administrator port may submit. -/
def RequestKind.adminOnly : RequestKind → Bool
  | .read | .program | .eraseSector | .eraseRegion | .verify | .armTrial | .setPort => false
  | .defineRegion | .clearRegion | .setAccess | .bindView | .lockRegion | .setBoot | .resetMaster | .flushPort
  | .storeConfig => true

/-- R43: the three write kinds, which need the latch at acceptance and clear it. -/
def RequestKind.isWrite : RequestKind → Bool
  | .program | .eraseSector | .eraseRegion => true
  | .read | .verify | .armTrial | .defineRegion | .clearRegion | .setAccess | .bindView | .lockRegion | .setBoot
  | .setPort | .resetMaster | .flushPort | .storeConfig => false

/-- Table 11-3: the payload length a kind and count call for; none where no request has that kind and count (a READ
or PROGRAM with a count of 0). -/
def RequestKind.payloadLength (k : RequestKind) (count : Nat) : Option Nat :=
  match k with
  | .read => if count = 0 then none else some 0
  | .program => if count = 0 then none else some count
  | .eraseSector | .eraseRegion | .verify | .storeConfig => some 0
  | .armTrial => some 5
  | .defineRegion => some 5
  | .clearRegion | .lockRegion | .resetMaster | .flushPort => some 1
  | .setAccess => some 3
  | .bindView => some 3
  | .setBoot => some 8
  | .setPort => some 3

/-- R42, R169: the request record a SUBMIT frame carries, none where the record is not well formed. -/
def submitRecord (f : SubmitFrame) : Option Request :=
  match RequestKind.ofCode f.kind with
  | none => none
  | some k =>
    if f.count.toNat ≤ 256 ∧ k.payloadLength f.count.toNat = some f.payloadLength.toNat then
      some ⟨k, f.tag, f.address, f.count.toNat, f.payload⟩
    else none

/-- R168: a two-byte field, most significant byte first. -/
def halfBytes (h : Half) : List Byte := [(h >>> 8).setWidth 8, h.setWidth 8]

/-- R168: a four-byte field, most significant byte first. -/
def wordBytes (w : Word) : List Byte :=
  [(w >>> 24).setWidth 8, (w >>> 16).setWidth 8, (w >>> 8).setWidth 8, w.setWidth 8]

/-- R168: a logical address, most significant byte first. -/
def addressBytes (a : LogicalAddress) : List Byte := [(a >>> 16).setWidth 8, (a >>> 8).setWidth 8, a.setWidth 8]

/-- Table 11-2: the bytes of a SUBMIT frame before its check byte. -/
def submitBytes (f : SubmitFrame) : List Byte :=
  TransactionKind.submit.opener :: f.kind :: f.tag :: (addressBytes f.address ++ halfBytes f.count
    ++ halfBytes f.payloadLength ++ f.payload)

/-- R148, Table 11-2: the bytes of a SUBMIT frame: the header alone where the payload length cannot delimit a frame. -/
def submitFrame (f : SubmitFrame) : List Byte :=
  if f.payloadLength.toNat ≤ 256 then submitBytes f ++ [f.check] else submitBytes f

/-! ## Payload fields (R168, Table 11-1, Table 11-3) -/

/-- The payload byte at a place counted from 0. -/
def Request.byte (r : Request) (i : Nat) : Byte := r.payload.getD i 0

/-- The two-byte payload field at a place, as a number. -/
def Request.half (r : Request) (i : Nat) : Nat := (r.byte i).toNat * 256 + (r.byte (i + 1)).toNat

/-- The four-byte payload field at a place. -/
def Request.word (r : Request) (i : Nat) : Word :=
  (r.byte i ++ r.byte (i + 1) ++ r.byte (i + 2) ++ r.byte (i + 3) : BitVec 32)

/-- Table 11-1: a port. -/
def portOfByte (b : Byte) : Option Port := if h : b.toNat < 4 then some ⟨b.toNat, h⟩ else none

/-- Table 11-1: a window. -/
def windowOfByte (b : Byte) : Option (Fin 4) := if h : b.toNat < 4 then some ⟨b.toNat, h⟩ else none

/-- Table 11-1: a region. -/
def regionOfByte (b : Byte) : Option RegionId := if h : b.toNat < 16 then some ⟨b.toNat, h⟩ else none

/-- Table 11-1: the target of a BIND_VIEW, a region or none; no value for a byte out of range. -/
def bindTargetOfByte (b : Byte) : Option (Option RegionId) :=
  if b = 0xFF then some none else (regionOfByte b).map some

/-- Table 11-1: an access level. -/
def levelOfByte (b : Byte) : Option Level :=
  match b.toNat with
  | 0 => some .none
  | 1 => some .read
  | 2 => some .write
  | 3 => some .full
  | _ => none

/-- Table 11-1: enable or check required. -/
def boolOfByte (b : Byte) : Option Bool :=
  match b.toNat with
  | 0 => some false
  | 1 => some true
  | _ => none

/-- Table 11-1: the active slot. -/
def slotOfByte (b : Byte) : Option Slot :=
  match b.toNat with
  | 0 => some .a
  | 1 => some .b
  | _ => none

/-- Table 11-1: the attempt limit. -/
def limitOfByte (b : Byte) : Option Nat := if 1 ≤ b.toNat ∧ b.toNat ≤ 7 then some b.toNat else none

/-- Table 11-1: the boot period. -/
def bootPeriodOfByte (b : Byte) : Option BootPeriod :=
  match b.toNat with
  | 0 => some .ms250
  | 1 => some .ms500
  | 2 => some .s1
  | 3 => some .s2
  | 4 => some .s4
  | 5 => some .s8
  | 6 => some .s16
  | 7 => some .s32
  | _ => none

/-- Table 11-1: the watchdog period. -/
def watchdogPeriodOfByte (b : Byte) : Option WatchdogPeriod :=
  match b.toNat with
  | 0 => some .off
  | 1 => some .ms100
  | 2 => some .ms250
  | 3 => some .ms500
  | 4 => some .s1
  | 5 => some .s2
  | 6 => some .s4
  | 7 => some .s8
  | _ => none

/-- Table 11-1: the deadline. -/
def deadlineOfByte (b : Byte) : Option Deadline :=
  match b.toNat with
  | 0 => some .off
  | 1 => some .ms10
  | 2 => some .ms100
  | 3 => some .s1
  | _ => none

/-! ## The same fields as bytes (R168, Table 11-1) -/

/-- 0x01 for yes, on or set; 0x00 otherwise. -/
def boolByte (b : Bool) : Byte := if b then 0x01 else 0x00

/-- Table 11-1: the code of a region number. -/
def regionByte (n : RegionId) : Byte := BitVec.ofNat 8 n.val

/-- Table 11-1: the code of a window's binding, 0xFF for none. -/
def bindingByte : Option RegionId → Byte
  | none => 0xFF
  | some n => regionByte n

/-- Table 11-1: the code of an access level. -/
def Level.code : Level → Byte
  | .none => 0x00
  | .read => 0x01
  | .write => 0x02
  | .full => 0x03

/-- Table 11-1, Table 11-5: the code of a slot. -/
def Slot.code : Slot → Byte
  | .a => 0x00
  | .b => 0x01

/-- Table 11-1: the code of a boot period. -/
def BootPeriod.code : BootPeriod → Byte
  | .ms250 => 0x00
  | .ms500 => 0x01
  | .s1 => 0x02
  | .s2 => 0x03
  | .s4 => 0x04
  | .s8 => 0x05
  | .s16 => 0x06
  | .s32 => 0x07

/-- Table 11-1: the code of a watchdog period. -/
def WatchdogPeriod.code : WatchdogPeriod → Byte
  | .off => 0x00
  | .ms100 => 0x01
  | .ms250 => 0x02
  | .ms500 => 0x03
  | .s1 => 0x04
  | .s2 => 0x05
  | .s4 => 0x06
  | .s8 => 0x07

/-- Table 11-1: the code of a deadline. -/
def Deadline.code : Deadline → Byte
  | .off => 0x00
  | .ms10 => 0x01
  | .ms100 => 0x02
  | .s1 => 0x03

/-! ## Levels (R28) -/

/-- R28: the place of a level on the ladder NONE, READ, WRITE, FULL. -/
def Level.rank : Level → Nat
  | .none => 0
  | .read => 1
  | .write => 2
  | .full => 3

/-- R28: whether a level permits what needs another. -/
def Level.permits (have_ need : Level) : Bool := decide (need.rank ≤ have_.rank)

/-! ## Completion records (R170) -/

/-- Table 11-4: the bytes of a completion record; a count of 256 is sent as 0x00. -/
def Completion.bytes (c : Completion) : List Byte :=
  c.tag :: c.kind.code :: c.status.code :: (if c.wrapped then 0x01 else 0x00) :: BitVec.ofNat 8 c.data.length
    :: c.data

/-- R55, R170: the empty record, five bytes of 0x00. -/
def emptyRecord : List Byte := [0, 0, 0, 0, 0]

/-! ## Status snapshots (R171) -/

/-- Table 11-5: the code of a boot state. -/
def BootState.code : BootState → Byte
  | .off => 0x00
  | .held => 0x01
  | .trial => 0x02
  | .unconfirmed => 0x03
  | .running => 0x04
  | .failed => 0x05

/-- Table 11-5: the code of a trial slot. -/
def trialCode : Option Slot → Byte
  | none => 0xFF
  | some t => t.code

/-- R156, R171: the 17 bytes of port p's snapshot as the part stands. -/
def State.snapshotBytes (s : State) (p : Port) : List Byte :=
  let x := s.port p
  [ BitVec.ofNat 8 p.val, boolByte (p == s.admin), BitVec.ofNat 8 x.queue.length, boolByte x.current.isSome,
    BitVec.ofNat 8 x.completions.length, BitVec.ofNat 8 x.creditsFree, boolByte x.latch, x.bootState.code,
    x.boot.active.code, trialCode x.trial, BitVec.ofNat 8 x.attempts, BitVec.ofNat 8 x.boot.attemptLimit,
    x.expected.byte, x.eventStatus, x.enables, x.causes, boolByte s.writer.snapshot.isSome ]

end Sys2Proof.Machine
end

