-- ==== Sys2Proof/Machine/RegionMap.lean ====
section
/-! DEFINITION. The Region Map (Chapter 2): translation and access checks, the protection test, and the five
administrative edits. -/

namespace Sys2Proof.Machine

open Sys2Proof

/-! ## Translation and checks (R25 to R29) -/

/-- R25: the window a logical address selects. -/
def windowOf (a : LogicalAddress) : Fin 4 := ⟨a.toNat / 4194304, by have := a.isLt; omega⟩

/-- R25: the offset of a logical address in its window. -/
def offsetOf (a : LogicalAddress) : Nat := a.toNat % 4194304

/-- The outcome of the first three checks of R29: the region, its range and the offset, or the status of the first
check that fails. -/
inductive Access where
  | ok (region : RegionId) (range : SectorRange) (offset : Nat)
  | failed (status : Status)
  deriving DecidableEq, Repr

/-- R29, checks 1 to 3: the window is bound (RANGE), the port's level is at least the level needed (DENIED), the
offset meets its demand on the region's size (RANGE). A window bound to an UNUSED entry would find all levels NONE
(R21, log 26). -/
def State.access (s : State) (p : Port) (a : LogicalAddress) (need : Level) (demand : Nat → Nat → Bool) : Access :=
  match (s.port p).window (windowOf a) with
  | none => .failed .range
  | some r =>
    match s.region r with
    | .unused => .failed .denied
    | .inUse _ range levels =>
      if !levels[p].permits need then .failed .denied
      else if !demand (offsetOf a) range.size then .failed .range
      else .ok r range (offsetOf a)

/-! ## Protection (R31, R32) -/

/-- R31: an in-use region is protected while it is LOCKED, is the active slot region of an enabled record, or is the
trial slot region of a port that has a trial armed. -/
def State.protectedRegion (s : State) (r : RegionId) : Bool :=
  match s.region r with
  | .unused => false
  | .inUse locked _ _ =>
    locked || allPorts.any fun q =>
      let x := s.port q
      (x.boot.enabled && x.boot.activeRegion == r) || x.trial.any fun t => x.boot.slot t == r

/-- R31, R32: a sector is protected while its region is; a sector with no region is not. -/
def State.protectedSector (s : State) (sector : Nat) : Bool :=
  allRegions.any fun r =>
    (match (s.region r).range? with
      | none => false
      | some range => range.contains sector) && s.protectedRegion r

/-! ## Administrative edits (R33 to R38)

Each answers the state with the edit made, or none where it is refused with CONFLICT and changes nothing. -/

/-- R34: four levels NONE. -/
def noAccess : Vector Level 4 := #v[.none, .none, .none, .none]

/-- R34: DEFINE_REGION. -/
def State.defineRegion (s : State) (r : Request) : Option State :=
  match regionOfByte (r.byte 0) with
  | none => none
  | some n =>
    let range : SectorRange := ⟨r.half 1, r.half 3⟩
    if !(s.region n).isInUse && range.legal
        && allRegions.all (fun m => match (s.region m).range? with
            | none => true
            | some q => !q.overlaps range) then
      some (s.setRegion n (.inUse false range noAccess))
    else none

/-- Whether any window of any port is bound to a region (R35). -/
def State.isBound (s : State) (n : RegionId) : Bool :=
  allPorts.any fun p => allPorts.any fun w => (s.port p).window w == some n

/-- Whether a region is a slot of an enabled boot record (R35). -/
def State.isEnabledSlot (s : State) (n : RegionId) : Bool :=
  allPorts.any fun p =>
    let b := (s.port p).boot
    b.enabled && (b.slotA == n || b.slotB == n)

/-- R35: CLEAR_REGION. -/
def State.clearRegion (s : State) (r : Request) : Option State :=
  match regionOfByte (r.byte 0) with
  | none => none
  | some n =>
    match s.region n with
    | .inUse false _ levels =>
      if (allPorts.all fun p => levels[p] == .none) && !s.isBound n && !s.isEnabledSlot n then
        some (s.setRegion n .unused)
      else none
    | _ => none

/-- R36: SET_ACCESS; a change of level raises CONFIG_EDIT at the port named (R40). -/
def State.setAccess (s : State) (r : Request) : Option State :=
  match regionOfByte (r.byte 0), portOfByte (r.byte 1), levelOfByte (r.byte 2) with
  | some n, some p, some new =>
    match s.region n with
    | .unused => none
    | .inUse locked range levels =>
      if levels[p] = new then some s
      else if levels[p] = .none ∨ new = .none then
        some ((s.setRegion n (.inUse locked range (levels.set p new))).raise p .configEdit)
      else none
  | _, _, _ => none

/-- R37: BIND_VIEW; a change of binding raises CONFIG_EDIT at the port named (R40). -/
def State.bindView (s : State) (r : Request) : Option State :=
  match portOfByte (r.byte 0), windowOfByte (r.byte 1), bindTargetOfByte (r.byte 2) with
  | some p, some w, some target =>
    if (s.port p).boot.enabled ∧ w.val < 2 then none
    else if target.any fun n => !(s.region n).isInUse then none
    else if (s.port p).window w = target then some s
    else some ((s.setWindow p w target).raise p .configEdit)
  | _, _, _ => none

/-- R40: CONFIG_EDIT raised at every port of a list whose level among those given is other than NONE. -/
def State.raiseConfigEdits (s : State) (levels : Vector Level 4) : List Port → State
  | [] => s
  | p :: rest =>
    (if levels[p] = .none then s else s.raise p .configEdit).raiseConfigEdits levels rest

/-- R38: LOCK_REGION; a lock raises CONFIG_EDIT at every port with a right to the region (R40). -/
def State.lockRegion (s : State) (r : Request) : Option State :=
  match regionOfByte (r.byte 0) with
  | none => none
  | some n =>
    match s.region n with
    | .unused => none
    | .inUse true _ _ => some s
    | .inUse false range levels =>
      some ((s.setRegion n (.inUse true range levels)).raiseConfigEdits levels allPorts)

end Sys2Proof.Machine
end

