-- ==== Sys2Proof/Machine/BankControl.lean ====
section
/-! DEFINITION. The Bank Controllers (Chapters 1, 4 and 5): the candidate set, the round-robin search and its grants,
the start of a write, suspension and resumption of an erase, streams. -/

namespace Sys2Proof.Machine

open Sys2Proof

/-! ## The candidate set (R64 to R67) -/

/-- Table 4-2: whether an entry is a read candidate. -/
def CandidateTarget.isRead : CandidateTarget → Bool
  | .read _ _ => true
  | .verifyChunk _ => true
  | .program _ _ _ => false
  | .sectorErase _ => false

/-- R65: port p joins the candidate set of bank b. -/
def State.join (s : State) (b : BankId) (p : Port) (c : Candidate) : State :=
  s.modBank b fun k => k.setCandidate p (some c)

/-- Whether a read candidate is present at a bank (R12, R14). -/
def Bank.hasReadCandidate (k : Bank) : Bool :=
  allPorts.any fun p => (k.candidate p).any fun c => c.target.isRead

/-- Table 4-3: whether the write slot permits a read grant. -/
def WriteSlot.permitsRead : WriteSlot → Bool
  | .none => true
  | .busy .suspended _ => true
  | .busy .starting _ => false
  | .busy .programming _ => false
  | .busy .erasing _ => false
  | .busy .suspending _ => false

/-- Whether the write slot is NONE. -/
def WriteSlot.isNone : WriteSlot → Bool
  | .none => true
  | .busy _ _ => false

/-- R67, Table 4-3: whether an entry may be granted now. -/
def Bank.mayGrant (k : Bank) (c : Candidate) : Bool :=
  if c.target.isRead then k.readSlot.isNone && k.writeSlot.permitsRead else k.writeSlot.isNone

/-! ## The search (R68, R69) -/

/-- R68: the order of a search from the pointer. -/
def Bank.searchOrder (k : Bank) : List Port := [k.pointer, k.pointer + 1, k.pointer + 2, k.pointer + 3]

/-- R68: port p's entry, if it may be granted now. -/
def Bank.grantable (k : Bank) (p : Port) : Option (Port × Candidate) :=
  match k.candidate p with
  | none => none
  | some c => if k.mayGrant c then some (p, c) else none

/-- R68: the port and entry that a search taken now grants, if any. -/
def Bank.nextGrant (k : Bank) : Option (Port × Candidate) := k.searchOrder.findSome? k.grantable

/-! ## Verifies and disturbance (R99 to R101) -/

/-- The verify record of port p's current request. -/
def State.verifyOf (s : State) (p : Port) : Option VerifyRecord :=
  match (s.port p).current with
  | none => none
  | some cur => cur.verify

/-- Port p's verify record replaced. -/
def State.setVerify (s : State) (p : Port) (v : VerifyRecord) : State :=
  s.modPort p fun x => { x with current := x.current.map fun c => { c with verify := some v } }

/-- R99: whether port p's verify is running between chunks at bank b: its entry waits there after a first grant. -/
def State.verifyWaits (s : State) (b : BankId) (p : Port) : Bool :=
  ((s.bank b).candidate p).any fun c => c.granted && (s.verifyOf p).isSome

/-- R100: the running verifies of a list of ports are marked disturbed where a write of a sector in their range
starts at their bank. -/
def State.markDisturbed (s : State) (b : BankId) (sector : Nat) : List Port → State
  | [] => s
  | p :: rest =>
    State.markDisturbed
      (match s.verifyOf p with
        | none => s
        | some v =>
          if s.verifyWaits b p && v.range.contains sector then s.setVerify p { v with disturbed := true } else s)
      b sector rest

/-- R100: whether a SUSPENDED erase of a sector of a range is in the write slot. -/
def Bank.suspendedEraseIn (k : Bank) (range : SectorRange) : Bool :=
  match k.writeSlot with
  | .busy .suspended ⟨_, .sectorErase sector, _⟩ => range.contains sector
  | _ => false

/-! ## Grants (R70, R71) -/

/-- R69, R70, R71: what every grant does: the entry leaves the set, the pointer moves past the port, and the request's
deadline timer stops. No other event moves the pointer, not the return of a chain either (log 31). -/
def State.takeGrant (s : State) (b : BankId) (p : Port) : State :=
  (s.modBank b fun k => { k.setCandidate p none with pointer := p + 1 }).stopDeadline p

/-- R70: an operation enters the read slot, with the digest accumulator it loads. -/
def State.enterReadSlot (s : State) (b : BankId) (op : ReadOperation) (digest : Option Word) : State :=
  s.modBank b fun k => { k with readSlot := some op, digest := digest }

/-- R71: a write found protected at its grant completes PROTECTED and the slot stays NONE; any other enters the slot
in STARTING. -/
def State.grantWrite (s : State) (b : BankId) (p : Port) (target : WriteTarget) (chunk : Option Nat) : State :=
  if s.protectedSector target.sector then s.completeBare p .writeProtected
  else s.modBank b fun k => { k with writeSlot := .busy .starting ⟨.port p, target, chunk⟩ }

/-- R70, R98, R100, R101: a verify chunk's grant. A marked verify, and one whose range a SUSPENDED erase at the bank
touches, ends DISTURBED with no read; any other enters the read slot with its running value in the accumulator. -/
def State.grantVerify (s : State) (b : BankId) (p : Port) (sector : Nat) : State :=
  match s.verifyOf p with
  | none => s
  | some v =>
    if v.disturbed || (s.bank b).suspendedEraseIn v.range then s.completeBare p .disturbed
    else
      s.enterReadSlot b ⟨.port p, .verifyChunk, sector * Config.sectorBytes, Config.sectorBytes⟩ (some v.running)

/-- R70, R71: the grant of bank b to port p's entry. -/
def State.grant (s : State) (b : BankId) (p : Port) (c : Candidate) : State :=
  let s' := s.takeGrant b p
  match c.target with
  | .read first length => s'.enterReadSlot b ⟨.port p, .read, first, length⟩ (s'.bank b).digest
  | .verifyChunk sector => s'.grantVerify b p sector
  | .program page start data => s'.grantWrite b p (.program page start data) c.chunk
  | .sectorErase sector => s'.grantWrite b p (.sectorErase sector) c.chunk

/-! ## Start, suspend and resume (R9, R12, R14) -/

/-- R9: the write that starts now at a bank: STARTING, with the read slot IDLE and no stream open. -/
def Bank.startDue (k : Bank) : Option WriteOperation :=
  match k.writeSlot with
  | .busy .starting op => if k.readSlot.isNone && k.openStreams == 0 then some op else none
  | _ => none

/-- R9: the slot after the start: a program is PROGRAMMING; an erase is ERASING with the suspend count at 0. -/
def Bank.start (k : Bank) (op : WriteOperation) : Bank :=
  match op.target with
  | .program _ _ _ => { k with writeSlot := .busy .programming op }
  | .sectorErase _ => { k with writeSlot := .busy .erasing op, suspendCount := 0 }

/-- R9, R100: the start of a write: the slot moves on and running verifies of its sector's range are marked. -/
def State.startWrite (s : State) (b : BankId) (op : WriteOperation) : State :=
  (s.modBank b fun k => k.start op).markDisturbed b op.target.sector allPorts

/-- R12: whether a suspend may be requested: ERASING with the suspend count below 8. -/
def Bank.suspendable (k : Bank) : Bool :=
  match k.writeSlot with
  | .busy .erasing _ => decide (k.suspendCount < Config.suspendLimit)
  | _ => false

/-- R12: a suspend is requested: ERASING moves to SUSPENDING. -/
def Bank.requestSuspend (k : Bank) : Bank :=
  match k.writeSlot with
  | .busy .erasing op => { k with writeSlot := .busy .suspending op }
  | _ => k

/-- R12: whether a read candidate's presence requests a suspend now (log 5). -/
def Bank.suspendDue (k : Bank) : Bool := k.suspendable && k.hasReadCandidate

/-- R14: whether a SUSPENDED erase resumes now: read slot IDLE, no stream open, no read candidate. -/
def Bank.resumeDue (k : Bank) : Bool :=
  match k.writeSlot with
  | .busy .suspended _ => k.readSlot.isNone && k.openStreams == 0 && !k.hasReadCandidate
  | _ => false

/-- R14: the resume: SUSPENDED moves to ERASING; the suspend count keeps its value. -/
def Bank.resume (k : Bank) : Bank :=
  match k.writeSlot with
  | .busy .suspended op => { k with writeSlot := .busy .erasing op }
  | _ => k

/-! ## Streams (R88, R92) -/

/-- R88: a stream of port p opens; its bank's open-stream count rises by 1. -/
def State.openStream (s : State) (p : Port) (t : Stream) : State :=
  (s.modPort p fun x => { x with stream := some t }).modBank t.bank fun k =>
    { k with openStreams := k.openStreams + 1 }

/-- R92: port p's open stream, if any, closes; its bank's open-stream count falls by 1. -/
def State.closeStream (s : State) (p : Port) : State :=
  match (s.port p).stream with
  | none => s
  | some t =>
    (s.modPort p fun x => { x with stream := none }).modBank t.bank fun k =>
      { k with openStreams := k.openStreams - 1 }

/-- R89: the addresses of the next n bytes of a stream, wrapping at the region's end to its base. -/
def Stream.addresses (t : Stream) (n : Nat) : List Nat :=
  (List.range n).map fun i => t.base + (t.next - t.base + i) % t.size

/-- R89: the stream after n bytes have been sent. -/
def Stream.advance (t : Stream) (n : Nat) : Stream :=
  { t with next := t.base + (t.next - t.base + n) % t.size }

end Sys2Proof.Machine
end

