-- ==== Sys2Proof/Machine/Supervisor.lean ====
section
/-! DEFINITION. The Boot Supervisor (Chapter 7) and what a reset pulse does to a port: the flush (R59), the cut of its
transaction (R154), pulses, timers, confirmation, the watchdog and SET_BOOT. -/

namespace Sys2Proof.Machine

open Sys2Proof

/-! ## The flush (R16, R59) -/

/-- R16: an owner after a flush of port p. -/
def Owner.flush (o : Owner) (p : Port) : Owner := if o = .port p then .orphan else o

/-- R16: the write slot after a flush of port p. -/
def WriteSlot.flush (w : WriteSlot) (p : Port) : WriteSlot :=
  match w with
  | .none => .none
  | .busy st op => .busy st { op with owner := op.owner.flush p }

/-- R16, R66: a Bank Controller after a flush of port p: its operations there become ORPHAN, its entry is dropped. -/
def Bank.flush (k : Bank) (p : Port) : Bank :=
  { (k.setCandidate p none) with
    readSlot := k.readSlot.map fun op => { op with owner := op.owner.flush p }
    writeSlot := k.writeSlot.flush p }

/-- R56, R92: a FETCH or an open stream that a flush overtakes sends 0xFF from then on and its deselect does
nothing. -/
def Transaction.flush (t : Transaction) : Transaction :=
  match t.decision with
  | none => t
  | some d =>
    match d.effect with
    | .fetched _ => { t with silenced := true }
    | .stream => { t with silenced := true }
    | _ => t

/-- R59: the Port Interface and Request Queue of a port after a flush. -/
def PortState.flush (x : PortState) : PortState :=
  { x with
    queue := []
    current := none
    completions := []
    latch := false
    transaction := x.transaction.map Transaction.flush }

/-- R59, R138: a flush of the administrator port withdraws its STORE_CONFIG from the writer (log 17). -/
def State.withdrawStore (s : State) (p : Port) : State :=
  if p = s.admin then { s with writer := { s.writer with waiting := false, carried := false } } else s

/-- R59: a flush of port p. -/
def State.flush (s : State) (p : Port) : State :=
  ((((s.modBank 0 fun k => k.flush p).modBank 1 fun k => k.flush p).modPort p PortState.flush).withdrawStore
    p).closeStream p

/-! ## The cut of a transaction (R154) -/

/-- Whether a transaction is in progress and neither ignored (R155) nor cut already. -/
def Transaction.isLive (t : Transaction) : Bool := !t.ignored && !t.cut

/-- R153, R154: the transaction in progress at port p, if any, is cut and FRAME_ABORT set. -/
def State.cutTransaction (s : State) (p : Port) : State :=
  match (s.port p).transaction with
  | none => s
  | some t =>
    if t.isLive then
      (s.modPort p fun x => { x with transaction := some { t with cut := true, holdTimer := .stopped } }).raise p
        .frameAbort
    else s

/-! ## Pulses and failure (R110 to R113, R117) -/

/-- The bit of a cause, or no bit: the pulses that end start-up hand no cause of their own (R128). -/
def causeMask : Option Cause → Byte
  | none => 0
  | some c => c.mask

/-- R110: the port's own record and flags at a pulse start. -/
def PortState.pulseStart (x : PortState) (cause : Option Cause) : PortState :=
  { x with
    enables := 0
    causes := x.causes ||| causeMask cause
    bootTimer := .stopped
    watchdog := .stopped
    pulse := .running Config.pulseMs
    bootState := if x.boot.enabled then .held else x.bootState }

/-- R110, R111: a reset pulse of port p starts, or starts again. -/
def State.pulseStart (s : State) (p : Port) (cause : Option Cause) : State :=
  ((s.flush p).cutTransaction p).modPort p fun x => x.pulseStart cause

/-- R117: the port's own record and flags at entry into FAILED. -/
def PortState.enterFailed (x : PortState) : PortState :=
  { x with
    enables := 0
    causes := x.causes ||| Cause.bootTimeout.mask
    bootTimer := .stopped
    watchdog := .stopped
    pulse := .stopped
    bootState := .failed }

/-- R117: port p enters FAILED; PEER_FAILED is set at the administrator port. -/
def State.enterFailed (s : State) (p : Port) : State :=
  (((s.flush p).cutTransaction p).modPort p PortState.enterFailed).raise s.admin .peerFailed

/-- R41: W0 and W1 of a supervised port. -/
def State.bindBoot (s : State) (p : Port) (w0 w1 : RegionId) : State :=
  (s.setWindow p 0 (some w0)).setWindow p 1 (some w1)

/-- R112: the release of port p's pulse. -/
def State.pulseRelease (s : State) (p : Port) : State :=
  let x := s.port p
  let s' := s.modPort p fun x => { x with pulse := .stopped }
  if x.boot.enabled then
    match x.trial with
    | some t =>
      (s'.bindBoot p (x.boot.slot t) x.boot.activeRegion).modPort p fun x =>
        { x with bootState := .trial, bootTimer := .running x.boot.bootPeriod.ms }
    | none =>
      (s'.bindBoot p x.boot.activeRegion x.boot.alternateRegion).modPort p fun x =>
        { x with bootState := .unconfirmed, bootTimer := .running x.boot.bootPeriod.ms }
  else s'

/-! ## The boot timer (R114 to R116) -/

/-- R115, R116: the boot timer of port p expires. -/
def State.bootTimerExpiry (s : State) (p : Port) : State :=
  match (s.port p).bootState with
  | .trial =>
    ((s.modPort p fun x => { x with trial := none }).raise p .bootFallback).pulseStart p (some .trialTimeout)
  | .unconfirmed =>
    let s' := s.modPort p fun x => { x with attempts := x.attempts + 1 }
    if (s'.port p).attempts < (s'.port p).boot.attemptLimit then s'.pulseStart p (some .bootTimeout)
    else s'.enterFailed p
  | _ => s

/-! ## Confirmation and the watchdog (R118 to R122) -/

/-- R118, R120: entry into RUNNING: the boot timer stops, 0x96 is expected, the watchdog starts unless it is OFF. -/
def PortState.enterRunning (x : PortState) : PortState :=
  { x with
    bootTimer := .stopped
    bootState := .running
    expected := .x96
    watchdog := x.boot.watchdogPeriod.start }

/-- R136: a commit store is asked for; the write begins at the same event where the writer is IDLE (log 27). -/
def State.requestCommit (s : State) : State := { s with writer := { s.writer with commitPending := true } }

/-- R118: a CONFIRM_BOOT of port p takes effect against the state as it stands. -/
def State.confirm (s : State) (p : Port) : State :=
  let x := s.port p
  match x.bootState, x.trial with
  | .unconfirmed, _ => s.modPort p fun x => { x.enterRunning with attempts := 0 }
  | .trial, some t =>
    ((s.modPort p fun x =>
        { x.enterRunning with attempts := 0, trial := none, boot := { x.boot with active := t } }).bindBoot p
      (x.boot.slot t) x.boot.activeRegion).requestCommit
  | _, _ => s

/-- R121: a SERVICE of port p takes effect: a right code restarts the watchdog and flips the expectation, a wrong one
starts a pulse; it has no effect where the watchdog no longer runs. -/
def State.serviceCode (s : State) (p : Port) (code : Byte) : State :=
  match (s.port p).watchdog with
  | .stopped => s
  | .running ms _ =>
    if code = (s.port p).expected.byte then
      s.modPort p fun x => { x with watchdog := .running ms false, expected := x.expected.flip }
    else s.pulseStart p (some .badService)

/-- R120: half the watchdog period has passed, once for each start or restart. -/
def State.watchdogHalf (s : State) (p : Port) : State :=
  match (s.port p).watchdog with
  | .running ms false => (s.modPort p fun x => { x with watchdog := .running ms true }).raise p .watchdogHalf
  | _ => s

/-! ## RESET_MASTER and SET_BOOT (R124 to R126) -/

/-- R124: RESET_MASTER acts on port t: a FAILED port has its attempts set to 0; in every state a pulse starts. -/
def State.resetMaster (s : State) (t : Port) : State :=
  (if (s.port t).bootState = .failed then s.modPort t fun x => { x with attempts := 0 } else s).pulseStart t
    (some .adminReset)

/-- R125: the six stored fields of a SET_BOOT payload other than Enabled, in range, with Enabled as given. -/
def Request.storedBoot (r : Request) : Option StoredBoot :=
  match boolOfByte (r.byte 1), regionOfByte (r.byte 2), regionOfByte (r.byte 3), slotOfByte (r.byte 4),
      limitOfByte (r.byte 5), bootPeriodOfByte (r.byte 6), watchdogPeriodOfByte (r.byte 7) with
  | some e, some a, some b, some act, some n, some boot, some dog => some ⟨e, a, b, act, n, boot, dog⟩
  | _, _, _, _, _, _, _ => none

/-- R125: SET_BOOT enabling port p with new stored fields: the record, W0 and W1, CONFIG_EDIT, and RUNNING, or HELD
while a pulse is in progress. -/
def State.enableBoot (s : State) (p : Port) (b : StoredBoot) : State :=
  let x := s.port p
  let s' := ((s.modPort p fun x => { x with boot := b, trial := none, attempts := 0 }).bindBoot p b.activeRegion
    b.alternateRegion).raise p .configEdit
  if x.pulse.isRunning then s'.modPort p fun x => { x with bootState := .held }
  else s'.modPort p PortState.enterRunning

/-- R126: SET_BOOT disabling port p. -/
def State.disableBoot (s : State) (p : Port) (b : StoredBoot) : State :=
  s.modPort p fun x =>
    { x with
      boot := b
      trial := none
      attempts := 0
      bootState := .off
      bootTimer := .stopped
      watchdog := .stopped }

/-- R125, R126: SET_BOOT; none where it is refused with CONFLICT. -/
def State.setBoot (s : State) (r : Request) : Option State :=
  match portOfByte (r.byte 0), r.storedBoot with
  | some p, some b =>
    if b.enabled then
      if (s.port p).boot.enabled ∨ b.slotA = b.slotB ∨ !(s.region b.slotA).isInUse ∨ !(s.region b.slotB).isInUse then
        none
      else some (s.enableBoot p b)
    else some (s.disableBoot p b)
  | _, _ => none

/-- R58: SET_PORT; none where it is refused with CONFLICT. -/
def State.setPortSettings (s : State) (r : Request) : Option State :=
  match portOfByte (r.byte 0), boolOfByte (r.byte 1), deadlineOfByte (r.byte 2) with
  | some p, some check, some deadline => some (s.modPort p fun x => { x with settings := ⟨check, deadline⟩ })
  | _, _, _ => none

end Sys2Proof.Machine
end

