-- ==== Sys2Proof/Machine/Store.lean ====
section
/-! DEFINITION. The Configuration Store (Chapter 8): the image and its consistency test, the writer, the load and its
defaults, and the values a reset gives. -/

namespace Sys2Proof.Machine

open Sys2Proof

/-! ## The image (R131, R132) -/

/-- R131: an entry as it is stored: LOCKED is stored as OPEN. -/
def RegionEntry.stored : RegionEntry → RegionEntry
  | .unused => .unused
  | .inUse _ range levels => .inUse false range levels

/-- R134: the snapshot of the stored fields of Table 8-1 as the part stands. -/
def State.snapshot (s : State) : ConfigImage where
  regions := s.regions.map RegionEntry.stored
  windows := s.ports.map PortState.windows
  boot := s.ports.map PortState.boot
  settings := s.ports.map PortState.settings

/-- R132: whether a region number names an in-use entry of an image. -/
def ConfigImage.uses (i : ConfigImage) (n : RegionId) : Bool := (i.regions[n]).isInUse

/-- R132, second test: the fields describe tables the part could hold: ranges, in-use entries within one bank and
sharing no sector, bound windows and enabled slots naming in-use entries. (Fields whose type holds only values in range,
and UNUSED entries, which have no levels, need no test.) -/
def ConfigImage.consistent (i : ConfigImage) : Bool :=
  (allRegions.all fun n => match (i.regions[n]).range? with
    | none => true
    | some q => q.legal)
  && (allRegions.all fun n => allRegions.all fun m => n == m ||
      match (i.regions[n]).range?, (i.regions[m]).range? with
      | some q, some r => !q.overlaps r
      | _, _ => true)
  && (allPorts.all fun p => allPorts.all fun w => match (i.windows[p])[w] with
      | none => true
      | some n => i.uses n)
  && (allPorts.all fun p =>
      let b := i.boot[p]
      decide (1 ≤ b.attemptLimit) && decide (b.attemptLimit ≤ 7)
        && (!b.enabled || (b.slotA != b.slotB && i.uses b.slotA && i.uses b.slotB)))

/-- Table 8-1: the stored fields of a region entry as bytes: state, first sector, sector count, the four levels; a LOCKED
entry is stored as OPEN (log 14). -/
def RegionEntry.bytes : RegionEntry → List Byte
  | .unused => List.replicate 9 0x00
  | .inUse _ range levels =>
    0x01 :: (halfBytes (BitVec.ofNat 16 range.first) ++ halfBytes (BitVec.ofNat 16 range.count)
      ++ levels.toList.map Level.code)

/-- Table 8-1: the stored fields of a boot record as bytes (log 14). -/
def StoredBoot.bytes (b : StoredBoot) : List Byte :=
  [boolByte b.enabled, regionByte b.slotA, regionByte b.slotB, b.active.code, BitVec.ofNat 8 b.attemptLimit,
    b.bootPeriod.code, b.watchdogPeriod.code]

/-- Table 8-1: a port settings record as bytes (log 14). -/
def Settings.bytes (x : Settings) : List Byte := [boolByte x.checkRequired, x.deadline.code]

/-- R131, Table 8-1: the bytes of an image that its check value covers, part by part in the table's order; the order is
internal to the part and the model's choice (log 14). -/
def ConfigImage.bytes (i : ConfigImage) : List Byte :=
  i.regions.toList.flatMap RegionEntry.bytes
    ++ i.windows.toList.flatMap (fun w => w.toList.map bindingByte)
    ++ i.boot.toList.flatMap StoredBoot.bytes ++ i.settings.toList.flatMap Settings.bytes

/-- R131: the check value of an image: the CRC-32 of R96 over every other byte of it. -/
def ConfigImage.check (i : ConfigImage) : Word := crc32Finish (crc32Bytes crc32Start i.bytes)

/-- R137: an image as a completed write stores it: followed by its check value. -/
def ConfigImage.withCheck (i : ConfigImage) : StoredImage := ⟨i, i.check⟩

/-- R132, first test: the CRC-32 computed over the stored fields equals the stored check value. -/
def StoredImage.checkPasses (b : StoredImage) : Bool := b.check == b.image.check

/-- R132: a stored image is valid when both tests pass. -/
def StoredImage.valid (b : StoredImage) : Bool := b.checkPasses && b.image.consistent

/-- R142: the image of the block that a load uses, none where it is invalid (R132). A block that was never written, or
whose last write was cut, holds no image that the first test could pass (log 14). -/
def validImage : Option StoredImage → Option ConfigImage
  | none => none
  | some b => if b.valid then some b.image else none

/-- R143: the default tables for an administrator port. -/
def defaultImage (admin : Port) : ConfigImage where
  regions :=
    let levels : Vector Level 4 := (#v[.read, .read, .read, .read] : Vector Level 4).set admin .full
    ((Vector.replicate 16 .unused).set 0 (.inUse false ⟨0, 1024⟩ levels)).set 1 (.inUse false ⟨1024, 1024⟩ levels)
  windows := Vector.replicate 4 #v[some 0, some 1, none, none]
  boot := Vector.replicate 4 StoredBoot.initial
  settings := Vector.replicate 4 Settings.initial

/-- R142: port p's tables filled from an image. -/
def State.fillPort (s : State) (i : ConfigImage) (p : Port) : State :=
  s.modPort p fun x => { x with windows := i.windows[p], boot := i.boot[p], settings := i.settings[p] }

/-- R142: the tables filled from an image; every in-use region is OPEN. -/
def State.fillTables (s : State) (i : ConfigImage) : State :=
  allPorts.foldl (fun s p => s.fillPort i p) { s with regions := i.regions.map RegionEntry.stored }

/-! ## The writer (R133 to R137) -/

/-- R134, R137: whether a write begins now: the writer is IDLE and a STORE_CONFIG waits or a commit is pending
(log 27). -/
def State.writeDue (s : State) : Bool :=
  s.writer.snapshot.isNone && (s.writer.waiting || s.writer.commitPending)

/-- R134, R135, R137: a write begins: the snapshot is taken, the block gives up its image, the waiting STORE_CONFIG
becomes the carried one, commit-pending clears. -/
def State.beginWrite (s : State) : State :=
  { s with
    block := none
    writer := ⟨some s.snapshot, false, false, s.writer.waiting⟩ }

/-- R137: the write in progress completes: the block holds its snapshot and check value, STORE_DONE is set at the
administrator port, a carried STORE_CONFIG completes DONE. What still waits begins a further write at the same event (log 4). -/
def State.completeWrite (s : State) (image : ConfigImage) : State :=
  let s' := ({ s with
      block := some image.withCheck
      writer := { s.writer with snapshot := none, carried := false } } : State).raise s.admin .storeDone
  if s.writer.carried then s'.completeBare s.admin .done else s'

/-! ## Resets (R18 to R20, R62, R139, R140, R166) -/

/-- R18: the array after the operation in a bank's write slot is cut, and the count of free bytes drawn. -/
def cutWrite (m : Memory) (n : Nat) : WriteSlot → Memory × Nat
  | .busy .programming ⟨_, .program page _ _, _⟩ => (m.scramble page n Config.pageBytes, n + Config.pageBytes)
  | .busy .erasing ⟨_, .sectorErase sector, _⟩ =>
    (m.scramble (sector * Config.sectorBytes) n Config.sectorBytes, n + Config.sectorBytes)
  | .busy .suspending ⟨_, .sectorErase sector, _⟩ =>
    (m.scramble (sector * Config.sectorBytes) n Config.sectorBytes, n + Config.sectorBytes)
  | .busy .suspended ⟨_, .sectorErase sector, _⟩ =>
    (m.scramble (sector * Config.sectorBytes) n Config.sectorBytes, n + Config.sectorBytes)
  | _ => (m, n)

/-- R18: the array after the cut of both banks, and the count of free bytes drawn. -/
def State.cutArray (s : State) : Memory × Nat :=
  let r := cutWrite s.array s.freeCount (s.bank 0).writeSlot
  cutWrite r.1 r.2 (s.bank 1).writeSlot

/-- R62, R88, R109, R145, R166: port p after a reset of the whole part: its reset values but for its select line, which
its master drives. -/
def State.resetPort (s : State) (p : Port) (causes : Byte) : PortState :=
  { PortState.reset causes with selected := (s.port p).selected }

/-- R20, R62, R88, R109, R133, R139, R145, R166: the whole part after a reset or loss of power: everything as
State.reset has it but for the array with its cuts, the block (no valid image if a write was in progress), the
administrator port, the select lines, the cause flags given, the start-up state given and the waiting commands. -/
def State.hardReset (s : State) (startUp : StartUp) (causes : Port → Byte) : State :=
  { State.reset with
    array := s.cutArray.1
    freeCount := s.cutArray.2
    ports := #v[s.resetPort 0 (causes 0), s.resetPort 1 (causes 1), s.resetPort 2 (causes 2),
      s.resetPort 3 (causes 3)]
    admin := s.admin
    startUp := startUp
    block := if s.writer.snapshot.isSome then none else s.block
    led := s.led
    pending := s.pending }

/-- R142, R144: the load completes: the tables are filled from the valid image or the defaults, CONFIG_DEFAULTED is set
at the administrator port in the second case, the start-up state becomes READY, and a pulse with no cause of its own
starts on every port. -/
def State.loadTables (s : State) : State :=
  let filled := match validImage s.block with
    | some i => s.fillTables i
    | none => (s.fillTables (defaultImage s.admin)).raise s.admin .configDefaulted
  allPorts.foldl (fun s p => s.pulseStart p none) { filled with startUp := .ready }

end Sys2Proof.Machine
end

