-- ==== Sys2Proof/Machine/Presentation.lean ====
section
/-! DEFINITION. Presentation (R48, R49): what becomes of the oldest queued request of a port, kind by kind. -/

namespace Sys2Proof.Machine

open Sys2Proof

/-- What the checks at presentation make of an array request or ARM_TRIAL: a status that completes it, or the bank it
joins with its entry, the range an ERASE_REGION carries and the verify record. -/
inductive Admission where
  | refused (status : Status)
  | joins (bank : BankId) (entry : Candidate) (range : Option SectorRange) (verify : Option VerifyRecord)
  deriving DecidableEq, Repr

/-- R26: demands on the offset. -/
def inRegion (offset size : Nat) : Bool := decide (offset < size)

/-- R26: ERASE_REGION and VERIFY do not use the offset. -/
def anyOffset (_offset _size : Nat) : Bool := true

/-- R26: a READ of n bytes ends within the region. -/
def endsInRegion (n offset size : Nat) : Bool := decide (offset + n ≤ size)

/-- R97: a fresh verify record. -/
def freshVerify (range : SectorRange) (arm : Option Arming) : VerifyRecord := ⟨range, 0, crc32Start, false, arm⟩

/-- R65: the read entry of chunk 0 of a VERIFY or ARM_TRIAL. -/
def firstChunk (range : SectorRange) : Candidate := ⟨.verifyChunk range.first, some 0, false⟩

/-- R29, R65, R76: a queued READ at presentation. -/
def State.admitRead (s : State) (p : Port) (r : Request) : Admission :=
  match s.access p r.address .read (endsInRegion r.count) with
  | .failed st => .refused st
  | .ok _ range offset => .joins range.bank ⟨.read (range.base + offset) r.count, none, false⟩ none none

/-- R29, R32, R65, R77: a queued PROGRAM at presentation. -/
def State.admitProgram (s : State) (p : Port) (r : Request) : Admission :=
  match s.access p r.address .write inRegion with
  | .failed st => .refused st
  | .ok _ range offset =>
    let a := range.base + offset
    if s.protectedSector (sectorOf a) then .refused .writeProtected
    else .joins range.bank ⟨.program (pageOf a) (pageOffset a) r.payload, none, false⟩ none none

/-- R29, R32, R65, R78: a queued ERASE_SECTOR at presentation. -/
def State.admitEraseSector (s : State) (p : Port) (r : Request) : Admission :=
  match s.access p r.address .full inRegion with
  | .failed st => .refused st
  | .ok _ range offset =>
    let sector := sectorOf (range.base + offset)
    if s.protectedSector sector then .refused .writeProtected
    else .joins range.bank ⟨.sectorErase sector, none, false⟩ none none

/-- R29, R32, R65, R79: a queued ERASE_REGION at presentation. -/
def State.admitEraseRegion (s : State) (p : Port) (r : Request) : Admission :=
  match s.access p r.address .full anyOffset with
  | .failed st => .refused st
  | .ok n range _ =>
    if s.protectedRegion n then .refused .writeProtected
    else .joins range.bank ⟨.sectorErase range.first, some 0, false⟩ (some range) none

/-- R29, R65, R97: a queued VERIFY at presentation. -/
def State.admitVerify (s : State) (p : Port) (r : Request) : Admission :=
  match s.access p r.address .read anyOffset with
  | .failed st => .refused st
  | .ok _ range _ => .joins range.bank (firstChunk range) none (some (freshVerify range none))

/-- R104: whether port t is eligible for an ARM_TRIAL submitted by port p. -/
def State.eligible (s : State) (p t : Port) : Bool :=
  let x := s.port t
  x.boot.enabled && x.trial.isNone
    && (x.bootState == .running || (x.bootState == .failed && p == s.admin))

/-- R27, R97, R104: a queued ARM_TRIAL at presentation. -/
def State.admitArm (s : State) (p : Port) (r : Request) : Admission :=
  match portOfByte (r.byte 0) with
  | none => .refused .conflict
  | some t =>
    if s.eligible p t then
      let b := (s.port t).boot
      match (s.region b.alternateRegion).range? with
      | none => .refused .conflict
      | some range =>
        .joins range.bank (firstChunk range) none
          (some (freshVerify range (some ⟨t, b.active.other, b.alternateRegion, r.word 1⟩)))
    else .refused .conflict

/-- R48, steps 3 and 4: an admission carried out for port p's current request. -/
def State.carryOut (s : State) (p : Port) : Admission → State
  | .refused st => s.completeBare p st
  | .joins b entry range verify =>
    (s.modPort p fun x => { x with current := x.current.map fun c => { c with range := range, verify := verify } }).join
      b p entry

/-- R33, R49: an administrative request made, DONE, or refused, CONFLICT. -/
def State.settleEdit (s : State) (p : Port) : Option State → State
  | none => s.completeBare p .conflict
  | some s' => s'.completeBare p .done

/-- R61: FLUSH_PORT; refused for a target above 3 and for the administrator port itself. -/
def State.flushPort (s : State) (r : Request) : Option State :=
  match portOfByte (r.byte 0) with
  | none => none
  | some t => if t = s.admin then none else some (s.flush t)

/-- R49, R124: RESET_MASTER completes DONE when the pulse it causes begins; a pulse of the submitting port itself takes
that completion away. -/
def State.presentReset (s : State) (p : Port) (r : Request) : State :=
  match portOfByte (r.byte 0) with
  | none => s.completeBare p .conflict
  | some t => (s.completeBare p .done).resetMaster t

/-- R135: a STORE_CONFIG presented waits for the next write, which begins at the same event where the writer is IDLE
(log 27). -/
def State.presentStore (s : State) : State := { s with writer := { s.writer with waiting := true } }

/-- R48: a request of port p, already its current request, is examined by its kind. -/
def State.examineKind (s : State) (p : Port) (r : Request) : State :=
  match r.kind with
  | .read => s.carryOut p (s.admitRead p r)
  | .program => s.carryOut p (s.admitProgram p r)
  | .eraseSector => s.carryOut p (s.admitEraseSector p r)
  | .eraseRegion => s.carryOut p (s.admitEraseRegion p r)
  | .verify => s.carryOut p (s.admitVerify p r)
  | .armTrial => s.carryOut p (s.admitArm p r)
  | .defineRegion => s.settleEdit p (s.defineRegion r)
  | .clearRegion => s.settleEdit p (s.clearRegion r)
  | .setAccess => s.settleEdit p (s.setAccess r)
  | .bindView => s.settleEdit p (s.bindView r)
  | .lockRegion => s.settleEdit p (s.lockRegion r)
  | .setBoot => s.settleEdit p (s.setBoot r)
  | .setPort => s.settleEdit p (s.setPortSettings r)
  | .resetMaster => s.presentReset p r
  | .flushPort => s.settleEdit p (s.flushPort r)
  | .storeConfig => s.presentStore

/-- R48, step 2: whether a request of port p completes NOT_ADMIN. -/
def State.notAdmin (s : State) (p : Port) (r : Request) : Bool :=
  p != s.admin
    && (r.kind.adminOnly || ((r.kind == .armTrial || r.kind == .setPort) && portOfByte (r.byte 0) != some p))

/-- R43: whether a kind becomes a candidate at a bank once it passes presentation. -/
def RequestKind.isBankKind : RequestKind → Bool
  | .read | .program | .eraseSector | .eraseRegion | .verify | .armTrial => true
  | .defineRegion | .clearRegion | .setAccess | .bindView | .lockRegion | .setBoot | .setPort | .resetMaster
  | .flushPort | .storeConfig => false

/-- R48, R51: the current request that a queued request becomes; the timer of an administrative kind stops. -/
def Queued.toCurrent (q : Queued) : Current :=
  ⟨q.request, if q.request.kind.isBankKind then q.timer else .stopped, none, none⟩

/-- R48: whether a presentation of port p is due: no current request and a queue that is not empty. -/
def PortState.presentable (x : PortState) : Bool := x.current.isNone && !x.queue.isEmpty

/-- R48: a queued request of port p, with the rest of its queue, is presented. -/
def State.presentQueued (s : State) (p : Port) (q : Queued) (rest : List Queued) : State :=
  let s' := s.modPort p fun x => { x with queue := rest, current := some q.toCurrent }
  if q.expired then s'.completeBare p .expired
  else if s.notAdmin p q.request then s'.completeBare p .notAdmin
  else s'.examineKind p q.request

/-- R48: presentation at port p: its oldest queued request becomes current and is examined; nothing where none is
due. -/
def State.present (s : State) (p : Port) : State :=
  match (s.port p).current, (s.port p).queue with
  | none, q :: rest => s.presentQueued p q rest
  | _, _ => s

end Sys2Proof.Machine
end

