-- ==== Sys2Proof/Machine/Settle.lean ====
section
/-! DEFINITION. What follows at the same event (log 4): presentations, the beginning of a configuration write, and at
each bank the start of a write, grants, suspend requests and resumes, taken one after another until none is due. -/

namespace Sys2Proof.Machine

open Sys2Proof

/-- The step due at bank b, if any, in this order: the start of a STARTING write (R9), the grant of a search (R68), a
suspend requested by a waiting read candidate (R12), the resume of a SUSPENDED erase (R14). -/
def State.bankStep (s : State) (b : BankId) : Option State :=
  match (s.bank b).startDue with
  | some op => some (s.startWrite b op)
  | none =>
    match (s.bank b).nextGrant with
    | some (p, c) => some (s.grant b p c)
    | none =>
      if (s.bank b).suspendDue then some (s.modBank b Bank.requestSuspend)
      else if (s.bank b).resumeDue then some (s.modBank b Bank.resume)
      else none

/-- The next step that is due inside an event, if any: a presentation (R48), the beginning of a configuration write
(R134), a step of Bank 0, a step of Bank 1 (log 4). A request that a completion lets through is thus presented before the
banks are tested: before the resume of R14 where a stream closes (R92) or a read candidate leaves (R66) at that event
(DESIGN CHOICE, log 32), and before the grants of a search and their protection tests, also where it is an edit or a flush
(DESIGN CHOICE, log 33). A write of the block begins before the grants of its event, so a presentation that follows a grant
is not in its snapshot (DESIGN CHOICE, log 35). -/
def State.internalStep (s : State) : Option State :=
  match allPorts.find? (fun p => (s.port p).presentable) with
  | some p => some (s.present p)
  | none =>
    if s.writeDue then some s.beginWrite
    else
      match s.bankStep 0 with
      | some s' => some s'
      | none => s.bankStep 1

/-- A bound on the steps that a write slot's state leaves due. -/
def WriteSlot.work : WriteSlot → Nat
  | .none => 0
  | .busy .starting _ => 2
  | .busy .programming _ => 0
  | .busy .erasing _ => 1
  | .busy .suspending _ => 0
  | .busy .suspended _ => 2

/-- A bound on the steps that a bank leaves due: three for each candidate, and the write slot's. -/
def Bank.work (k : Bank) : Nat :=
  3 * (allPorts.filter fun p => (k.candidate p).isSome).length + k.writeSlot.work

/-- A bound on the steps due inside an event: four for each queued request, each bank's, and the writer's. -/
def State.work (s : State) : Nat :=
  4 * (allPorts.map fun p => (s.port p).queue.length).sum + (s.bank 0).work + (s.bank 1).work
    + (if s.writeDue then 1 else 0)

/-- The steps due inside an event, at most `fuel` of them. -/
def State.settle (s : State) : Nat → State
  | 0 => s
  | fuel + 1 =>
    match s.internalStep with
    | none => s
    | some s' => s'.settle fuel

/-- The end of an event: every step due inside it is taken, and STLED takes its condition again (R129). -/
def State.finish (s : State) : State := (s.settle s.work).refreshLed

/-- No step is due inside an event: the state between commands. -/
def State.quiet (s : State) : Bool := s.internalStep.isNone

end Sys2Proof.Machine
end

