-- ==== Sys2Proof/Machine/BankEvents.lean ====
section
/-! DEFINITION. The events at a bank: grants, starts, suspensions and the ends of operations (Chapters 1, 4 and 6). An
event whose condition does not hold is not an event of the part: the command has no effect (log 2). -/

namespace Sys2Proof.Machine

open Sys2Proof

/-! ## Grants, start, suspension -/

/-- READ_GRANT (R70): the search taken now grants a read candidate; no effect where it grants none. -/
def execReadGrant (b : BankId) (s : State) : Host.Outcome State Fault Refusal :=
  match (s.bank b).nextGrant with
  | some (p, c) => if c.target.isRead then .next (s.grant b p c).finish else .next s
  | none => .next s

/-- WRITE_GRANT (R71): the search taken now grants a write candidate; no effect where it grants none. -/
def execWriteGrant (b : BankId) (s : State) : Host.Outcome State Fault Refusal :=
  match (s.bank b).nextGrant with
  | some (p, c) => if c.target.isRead then .next s else .next (s.grant b p c).finish
  | none => .next s

/-- WRITE_START (R9): a STARTING write begins once the read slot is IDLE and no stream is open. -/
def execWriteStart (b : BankId) (s : State) : Host.Outcome State Fault Refusal :=
  match (s.bank b).startDue with
  | some op => .next (s.startWrite b op).finish
  | none => .next s

/-- R13: the suspend complete event at a bank: SUSPENDING moves to SUSPENDED and the suspend count rises by 1. -/
def Bank.suspendComplete (k : Bank) (op : WriteOperation) : Bank :=
  { k with writeSlot := .busy .suspended op, suspendCount := k.suspendCount + 1 }

/-- SUSPEND_COMPLETE (R13): a SUSPENDING erase has paused. -/
def execSuspendComplete (b : BankId) (s : State) : Host.Outcome State Fault Refusal :=
  match (s.bank b).writeSlot with
  | .busy .suspending op => .next (s.modBank b fun k => k.suspendComplete op).finish
  | _ => .next s

/-- RESUME (R14): a SUSPENDED erase resumes once the read slot is IDLE, no stream is open and no read candidate
waits. -/
def execResume (b : BankId) (s : State) : Host.Outcome State Fault Refusal :=
  if (s.bank b).resumeDue then .next (s.modBank b Bank.resume).finish else .next s

/-! ## The end of a read (R7, R76, R98, R106) -/

/-- R106, step 1: whether a bank's write slot holds a write of a sector of a range. -/
def Bank.writesIn (k : Bank) (range : SectorRange) : Bool :=
  match k.writeSlot with
  | .none => false
  | .busy _ op => range.contains op.target.sector

/-- R106, step 3: whether the target's record and the region table still allow the arming of what was verified. -/
def State.armStands (s : State) (range : SectorRange) (a : Arming) : Bool :=
  let x := s.port a.target
  x.boot.enabled && x.trial.isNone && x.boot.active.other == a.slot && x.boot.slot a.slot == a.region
    && (s.region a.region).range? == some range

/-- R106: the outcome of an ARM_TRIAL of port p whose last chunk has given a digest. A trial is armed before the grants of
the search that follows at the same read complete (DESIGN CHOICE, log 33). -/
def State.decideArm (s : State) (p : Port) (v : VerifyRecord) (a : Arming) (digest : Word) : State :=
  if (s.bank v.range.bank).writesIn v.range then s.completeBare p .disturbed
  else if digest ≠ a.digest then s.completeBare p .mismatch
  else if !s.armStands v.range a then s.completeBare p .conflict
  else (s.modPort a.target fun x => { x with trial := some a.slot }).completeBare p .done

/-- R98: what follows a verify chunk of port p at bank b whose bytes left the digest register at `register`: the next
chunk joins, or the digest is formed and the request completes. Beside a SUSPENDED erase the return comes before R14's
resume is tested, so the erase stays SUSPENDED for the next chunk (DESIGN CHOICE, log 30). -/
def State.returnChunk (s : State) (b : BankId) (p : Port) (v : VerifyRecord) (register : Word) : State :=
  if v.next + 1 < v.range.count then
    (s.setVerify p { v with next := v.next + 1, running := register }).join b p
      ⟨.verifyChunk (v.range.first + (v.next + 1)), some (v.next + 1), true⟩
  else
    match v.arm with
    | none => s.complete p .done false (wordBytes (crc32Finish register))
    | some a => s.decideArm p v a (crc32Finish register)

/-- R7: the read slot becomes IDLE; a verify chunk's accumulator is emptied (R98), and an orphan's (R17). -/
def Bank.endRead (k : Bank) (op : ReadOperation) : Bank :=
  { k with
    readSlot := none
    digest := if op.kind = .verifyChunk ∨ op.owner = .orphan then none else k.digest }

/-- R7: the read complete event: the bytes, read as R2 states, go to the owner's READ completion or through the digest
register, or are discarded for an orphan (R17). -/
def State.readComplete (s : State) (b : BankId) (op : ReadOperation) : State :=
  let s' := s.modBank b fun k => k.endRead op
  match op.owner with
  | .orphan => s'
  | .port p =>
    let r := s.sample (List.range' op.first op.length) s.freeCount
    let s'' := { s' with freeCount := r.2 }
    match op.kind with
    | .read => s''.complete p .done false r.1
    | .verifyChunk =>
      match s''.verifyOf p with
      | none => s''
      | some v => s''.returnChunk b p v (crc32Bytes ((s.bank b).digest.getD v.running) r.1)

/-- READ_COMPLETE (R7): the read in the read slot ends. -/
def execReadComplete (b : BankId) (s : State) : Host.Outcome State Fault Refusal :=
  match (s.bank b).readSlot with
  | some op => .next (s.readComplete b op).finish
  | none => .next s

/-! ## The end of a program (R10, R77) -/

/-- R4: whether a program wraps within its page. -/
def wraps (start count : Nat) : Bool := decide (Config.pageBytes < start + count)

/-- R10: the program complete event: the data bytes are ANDed into their page, the slot becomes NONE, and the owner's
request completes DONE with its WRAPPED flag. -/
def State.programComplete (s : State) (b : BankId) (owner : Owner) (page start : Nat) (data : List Byte) : State :=
  let s' := { (s.modBank b fun k => { k with writeSlot := .none }) with
    array := s.array.program page start data }
  match owner with
  | .orphan => s'
  | .port p => s'.complete p .done (wraps start data.length) []

/-- PROGRAM_COMPLETE (R10): a program in PROGRAMMING ends. -/
def execProgramComplete (b : BankId) (s : State) : Host.Outcome State Fault Refusal :=
  match (s.bank b).writeSlot with
  | .busy .programming ⟨owner, .program page start data, _⟩ =>
    .next (s.programComplete b owner page start data).finish
  | _ => .next s

/-! ## The end of a sector erase (R11, R79) -/

/-- R79: the range carried by port p's ERASE_REGION. -/
def State.rangeOf (s : State) (p : Port) : Option SectorRange :=
  match (s.port p).current with
  | none => none
  | some cur => cur.range

/-- R11, R79: what follows the erase of a sector for its owner p: the next chunk of an ERASE_REGION joins, or the
request completes DONE. The return does not move the pointer: it stands after the port granted last (R69), which is a reader's
where a read was granted during a suspension, although R79 says that it stands after the chain's port (DEDUCED, log 31). -/
def State.nextErase (s : State) (b : BankId) (p : Port) (chunk : Option Nat) : State :=
  match chunk, s.rangeOf p with
  | some k, some range =>
    if k + 1 < range.count then s.join b p ⟨.sectorErase (range.first + (k + 1)), some (k + 1), true⟩
    else s.completeBare p .done
  | _, _ => s.completeBare p .done

/-- R11: the sector erase complete event: the sector becomes 0xFF, the slot NONE, the suspend count 0. -/
def State.eraseComplete (s : State) (b : BankId) (owner : Owner) (sector : Nat) (chunk : Option Nat) : State :=
  let s' := { (s.modBank b fun k => { k with writeSlot := .none, suspendCount := 0 }) with
    array := s.array.erase (sector * Config.sectorBytes) Config.sectorBytes }
  match owner with
  | .orphan => s'
  | .port p => s'.nextErase b p chunk

/-- SECTOR_ERASE_COMPLETE (R11): an erase in ERASING or SUSPENDING ends. -/
def execSectorEraseComplete (b : BankId) (s : State) : Host.Outcome State Fault Refusal :=
  match (s.bank b).writeSlot with
  | .busy .erasing ⟨owner, .sectorErase sector, chunk⟩ => .next (s.eraseComplete b owner sector chunk).finish
  | .busy .suspending ⟨owner, .sectorErase sector, chunk⟩ => .next (s.eraseComplete b owner sector chunk).finish
  | _ => .next s

end Sys2Proof.Machine
end

