-- ==== Sys2Proof/Machine/BootEvents.lean ====
section
/-! DEFINITION. The Boot Supervisor's own events (Chapter 7): the release of a pulse and the timers that run out. A timer
that does not run does not expire: the command has no effect (log 2, log 3). -/

namespace Sys2Proof.Machine

open Sys2Proof

/-- PULSE_RELEASE (R112): 10 ms after the last pulse start, the pulse in progress is released. -/
def execPulseRelease (p : Port) (s : State) : Host.Outcome State Fault Refusal :=
  if (s.port p).pulse.isRunning then .next (s.pulseRelease p).finish else .next s

/-- BOOT_TIMER_EXPIRY (R115, R116): the running boot timer expires. -/
def execBootTimerExpiry (p : Port) (s : State) : Host.Outcome State Fault Refusal :=
  if (s.port p).bootTimer.isRunning then .next (s.bootTimerExpiry p).finish else .next s

/-- WATCHDOG_HALF (R120): half the period of the running watchdog has passed. -/
def execWatchdogHalf (p : Port) (s : State) : Host.Outcome State Fault Refusal :=
  .next (s.watchdogHalf p)

/-- WATCHDOG_EXPIRY (R122): the running watchdog expires. -/
def execWatchdogExpiry (p : Port) (s : State) : Host.Outcome State Fault Refusal :=
  if (s.port p).watchdog.isRunning then .next (s.pulseStart p (some .watchdog)).finish else .next s

end Sys2Proof.Machine
end

