-- ==== Sys2Proof/Machine/Transactions.lean ====
section
/-! DEFINITION. Transactions (Chapter 9): bytes clocked, the end of a frame, the deselect and the select-hold limit; the
commands TRANSACTION_START, UNKNOWN_OPENER, DESELECT and SELECT_HOLD_LIMIT. -/

namespace Sys2Proof.Machine

open Sys2Proof

/-! ## Bytes clocked (R145, log 6, log 7) -/

/-- The decision that a transaction's answer still follows: none where it is ignored, cut, silenced or undecided, and
every byte is filler. -/
def Transaction.answering (t : Transaction) : Option Decision :=
  if t.ignored || t.cut || t.silenced then none else t.decision

/-- n bytes that the part sends at port p in its transaction t: they are counted as taken and added to `sdo`. -/
def State.send (s : State) (p : Port) (t : Transaction) (bytes : List Byte) : State :=
  s.modPort p fun x =>
    { x with transaction := some { t with taken := t.taken + bytes.length }, sdo := x.sdo ++ bytes }

/-- R89: n data bytes of port p's stream, with the stream advanced past them. -/
def State.sendStream (s : State) (p : Port) (t : Transaction) (head : List Byte) (stream : Stream) (n : Nat) : State :=
  let r := s.sample (stream.addresses n) s.freeCount
  { ((s.modPort p fun x => { x with stream := some (stream.advance n) }).send p t (head ++ r.1)) with freeCount := r.2 }

/-- R145: the master clocks n more bytes of port p's transaction: the part sends what is left of the answer, then the
data of an open stream or filler; nothing where no transaction is in progress. -/
def State.clockOut (s : State) (p : Port) (n : Nat) : State :=
  match (s.port p).transaction with
  | none => s
  | some t =>
    match t.answering with
    | none => s.send p t (List.replicate n Config.filler)
    | some d =>
      let head := (d.answer.drop (t.taken - t.frame.length)).take n
      match d.effect, (s.port p).stream with
      | .stream, some stream => s.sendStream p t head stream (n - head.length)
      | _, _ => s.send p t (head ++ List.replicate (n - head.length) Config.filler)

/-! ## The end of a frame (R147, R150) -/

/-- R147: whether a transaction still takes the bytes of its frame: neither ignored nor cut, and not decided yet. -/
def Transaction.isFraming (t : Transaction) : Bool := t.isLive && t.decision.isNone

/-- Whether a port's transaction goes on to take this whole frame: the bytes taken so far are its first ones. -/
def PortState.takesFrame (x : PortState) (frame : List Byte) : Bool :=
  x.transaction.any fun t => t.isFraming && t.frame.isPrefixOf frame

/-- R145: transaction t of port p, its frame grown to `frame`: kind, frame bytes and number taken follow, and 0xFF is sent
for each byte that is new. -/
def State.takeFrame (s : State) (p : Port) (t : Transaction) (frame : List Byte) (decision : Option Decision) : State :=
  s.modPort p fun x =>
    { x with
      transaction := some { t with
        kind := kindOfFrame frame, frame := frame, taken := frame.length, decision := decision }
      sdo := x.sdo ++ List.replicate (frame.length - t.frame.length) Config.filler }

/-- R145, R150: a frame of port p is complete: its bytes have been taken while 0xFF was sent, and the decision is
made. -/
def State.decideFrame (s : State) (p : Port) (frame : List Byte) (d : Decision) : State :=
  match (s.port p).transaction with
  | none => s
  | some t => s.takeFrame p t frame (some d)

/-- R147: a frame that port p's transaction does not take: in a transaction that is ignored, cut or decided its bytes are
only clocked, for they stand beyond the frame; beside an unfinished frame of other bytes the term is no event (log 21). -/
def State.passFrame (s : State) (p : Port) (length : Nat) : State :=
  if (s.port p).transaction.any Transaction.isFraming then s else s.clockOut p length

/-- R147, R150: the bytes of a frame and `clocked` bytes after it. Where the transaction takes the frame it is decided as d
and the answer follows. -/
def State.endFrame (s : State) (p : Port) (frame : List Byte) (d : Decision) (clocked : Nat) : State :=
  if (s.port p).takesFrame frame then (s.decideFrame p frame d).clockOut p clocked
  else s.passFrame p (frame.length + clocked)

/-! ## The effect at the deselect (R151) -/

/-- R44: the request of an ACCEPTED SUBMIT is accepted. -/
def PortState.accept (x : PortState) (r : Request) : PortState :=
  { x with
    queue := x.queue ++ [⟨r, x.settings.deadline.timer, false⟩]
    latch := if r.kind.isWrite then false else x.latch }

/-- R151: the effect decided at the end of the frame is taken against the state as it stands; `answered` is how many
bytes of the answer have been clocked out (R55), and a silenced transaction removes nothing (R56). -/
def State.takeEffect (s : State) (p : Port) (silenced : Bool) (answered : Nat) : Effect → State
  | .nothing => s
  | .accept r => s.modPort p fun x => x.accept r
  | .setLatch => s.modPort p fun x => { x with latch := true }
  | .clearLatch => s.modPort p fun x => { x with latch := false }
  | .clearEvents set => s.clearSticky p set
  | .setEnables set => s.modPort p fun x => { x with enables := set }
  | .clearCauses set => s.modPort p fun x => { x with causes := x.causes &&& ~~~set }
  | .confirmBoot => s.confirm p
  | .service code => s.serviceCode p code
  | .restart => s.pulseStart p (some .selfRestart)
  | .fetched none => s
  | .fetched (some n) =>
    if !silenced && decide (n ≤ answered) then s.modPort p fun x => { x with completions := x.completions.drop 1 }
    else s
  | .stream => s

/-- R145, R151, R152, R155: the deselect of transaction t of port p, whose last byte has been clocked: an ignored or cut one
has no effect, one whose frame is not complete sets FRAME_ABORT, any other closes its stream (R92) and takes its
effect. -/
def State.endTransaction (s : State) (p : Port) (t : Transaction) : State :=
  let s' := s.modPort p fun x => { x with selected := false, transaction := none }
  if t.isLive then
    match t.decision with
    | none => s'.raise p .frameAbort
    | some d => (s'.closeStream p).takeEffect p t.silenced (t.taken - t.frame.length) d.effect
  else s'

/-! ## Commands -/

/-- R155: whether a transaction of port p that begins now is ignored. -/
def State.ignoresTransactions (s : State) (p : Port) : Bool :=
  s.startUp.isStartingUp || (s.port p).pulse.isRunning || (s.port p).bootState == .failed

/-- R145: a transaction that is not ignored, these bytes of its unfinished frame taken: its hold timer runs. -/
def framingTransaction (frame : List Byte) : Transaction :=
  ⟨false, false, false, kindOfFrame frame, frame, frame.length, .running Config.holdLimitMs, none⟩

/-- R155: an ignored transaction, n bytes clocked: it is not framed and not timed. -/
def ignoredTransaction (n : Nat) : Transaction := ⟨true, false, false, none, [], n, .stopped, none⟩

/-- The select of port p goes active, and n bytes are clocked in the transaction that begins, as t after them. -/
def State.beginTransaction (s : State) (p : Port) (t : Transaction) (n : Nat) : State :=
  s.modPort p fun x =>
    { x with selected := true, transaction := some t, sdo := List.replicate n Config.filler }

/-- TRANSACTION_START (R145, R155): a transaction begins at port p, with the first bytes of its frame. No effect where the
select is active already (log 2, log 19), nor where the bytes would complete a frame, for then a frame command is the event
(log 21). Without power the select line alone changes: no transaction begins (log 13). -/
def execTransactionStart (start : TransactionStart) (s : State) : Host.Outcome State Fault Refusal :=
  let p := start.port
  let n := start.bytes.length
  if (s.port p).selected || (s.port p).transaction.isSome then .next s
  else if s.startUp = .unpowered then .next (s.modPort p fun x => { x with selected := true })
  else if s.ignoresTransactions p then .next (s.beginTransaction p (ignoredTransaction n) n)
  else if frameUnfinished start.bytes then .next (s.beginTransaction p (framingTransaction start.bytes) n)
  else .next s

/-- R146, R150: the decision on an unknown opener. -/
def unknownDecision : Decision := ⟨[Ack.badFrame.code], .nothing⟩

/-- UNKNOWN_OPENER (R146): BAD_FRAME and filler; no effect. An opener that names a kind is not this event (log 21). -/
def execUnknownOpener (p : Port) (opener : Byte) (clocked : Nat) (s : State) : Host.Outcome State Fault Refusal :=
  if knownOpener opener then .next s else .next (s.endFrame p [opener] unknownDecision clocked)

/-- R147, R152: whether these further bytes would complete the frame of transaction t. They are then a frame command's, and
no part of the event that carries them (log 21). -/
def Transaction.completedBy (t : Transaction) (bytes : List Byte) : Bool :=
  t.isFraming && !frameUnfinished (t.frame ++ bytes)

/-- The further bytes of port p's transaction t before a deselect or the select-hold limit: a frame that is not complete
grows by them, and any other transaction is only clocked. -/
def State.takeBytes (s : State) (p : Port) (t : Transaction) (bytes : List Byte) : State :=
  if t.isFraming then s.takeFrame p t (t.frame ++ bytes) none else s.clockOut p bytes.length

/-- R151, R152: the select of port p goes inactive, and the transaction in progress ends. -/
def State.deselect (s : State) (p : Port) : State :=
  match (s.port p).transaction with
  | none => s
  | some t => s.endTransaction p t

/-- DESELECT (R151, R152): the master clocks its last bytes and drives the select inactive. With no transaction in progress
only the select line changes (log 19). Bytes that would complete a frame are a frame command's, for a transaction whose
frame is complete is not early-ended (R152), and the term is then no event (log 21). -/
def execDeselect (p : Port) (bytes : List Byte) (s : State) : Host.Outcome State Fault Refusal :=
  match (s.port p).transaction with
  | none => .next (s.modPort p fun x => { x with selected := false })
  | some t =>
    if t.completedBy bytes then .next s else .next ((s.takeBytes p t bytes).deselect p).finish

/-- R153: the limit reached: a transaction whose hold timer runs is cut, its stream closed (R92) and FRAME_ABORT set; the
limit does nothing to one that is not timed: ignored (R155) or cut already (log 24). -/
def State.holdLimit (s : State) (p : Port) (t : Transaction) : State :=
  if t.holdTimer.isRunning then ((s.cutTransaction p).closeStream p).finish else s

/-- SELECT_HOLD_LIMIT (R153): the select has stayed active for 50 ms. Bytes that would complete a frame are a frame
command's, and the term is then no event (log 21). -/
def execSelectHoldLimit (p : Port) (bytes : List Byte) (s : State) : Host.Outcome State Fault Refusal :=
  match (s.port p).transaction with
  | none => .next s
  | some t =>
    if t.completedBy bytes then .next s else .next ((s.takeBytes p t bytes).holdLimit p t)

end Sys2Proof.Machine
end

