-- ==== Sys2Proof/Machine/Frames.lean ====
section
/-! DEFINITION. The frames: DIRECT_READ (Chapter 5), SUBMIT and FETCH (Chapter 3), the status reads (Chapter 9) and the
checked immediate requests (Chapters 3, 7 and 10). Each command is the end of its frame: the decision is made here and
its effect is taken at DESELECT (R150, R151). -/

namespace Sys2Proof.Machine

open Sys2Proof

/-! ## DIRECT_READ (R84 to R88) -/

/-- What a stream attempt comes to at address completion: a marker that opens nothing, with the bank where a suspend
is requested if any (R85, R86), or GO with the stream (R88). -/
inductive Attempt where
  | refused (m : Marker)
  | notReady (bank : BankId)
  | go (stream : Stream)
  deriving DecidableEq, Repr

/-- R85, R86: an attempt of port p decided from the tables and from the bank's write slot. -/
def State.attempt (s : State) (p : Port) (a : LogicalAddress) : Attempt :=
  match s.access p a .read inRegion with
  | .failed .denied => .refused .denied
  | .failed _ => .refused .range
  | .ok _ range offset =>
    if (s.bank range.bank).writeSlot.permitsRead then
      .go ⟨range.bank, range.base, range.size, range.base + offset⟩
    else .notReady range.bank

/-- R84, Table 9-2: the frame of a DIRECT_READ. -/
def directReadFrame (a : LogicalAddress) : List Byte := TransactionKind.directRead.opener :: addressBytes a

/-- Table 5-1: the decision of a DIRECT_READ: two turnaround bytes, then the marker. -/
def directReadDecision (m : Marker) (effect : Effect) : Decision := ⟨[0xFF, 0xFF, m.code], effect⟩

/-- R86, Table 5-2: a suspend requested by a stream attempt: ERASING below the limit moves to SUSPENDING. This stands also
where the erase was granted from NONE just before and started at its grant: the first row of Table 5-4 says no suspend
there, and the model follows Table 5-2 (DESIGN CHOICE, log 29). -/
def Bank.attemptSuspend (k : Bank) : Bank := if k.suspendable then k.requestSuspend else k

/-- DIRECT_READ (R84, R86, R88): the attempt is decided at address completion; GO opens the stream, an ERASING bank
below its limit is asked to suspend. -/
def execDirectRead (p : Port) (a : LogicalAddress) (clocked : Nat) (s : State) : Host.Outcome State Fault Refusal :=
  let frame := directReadFrame a
  if (s.port p).takesFrame frame then
    match s.attempt p a with
    | .refused m => .next (s.endFrame p frame (directReadDecision m .nothing) clocked)
    | .notReady b =>
      .next ((s.modBank b Bank.attemptSuspend).endFrame p frame (directReadDecision .notReady .nothing) clocked)
    | .go stream => .next ((s.openStream p stream).endFrame p frame (directReadDecision .go .stream) clocked)
  else .next (s.passFrame p (frame.length + clocked))

/-! ## SUBMIT (R44, R148) -/

/-- R44: the four checks at the end of a SUBMIT frame, in order, and the request to be accepted. -/
def submitOutcome (x : PortState) (f : SubmitFrame) : Ack × Effect :=
  if 256 < f.payloadLength.toNat then (.badFrame, .nothing)
  else
    match submitRecord f with
    | none => (.badFrame, .nothing)
    | some r =>
      if !x.checkPasses (submitBytes f) f.check then (.badCheck, .nothing)
      else if r.kind.isWrite && !x.latch then (.noLatch, .nothing)
      else if x.creditsInUse < Config.credits then (.accepted, .accept r)
      else (.full, .nothing)

/-- The decision of a SUBMIT. -/
def submitDecision (x : PortState) (f : SubmitFrame) : Decision :=
  ⟨[(submitOutcome x f).1.code], (submitOutcome x f).2⟩

/-- SUBMIT (R44, R148): the acknowledgement is decided; the acceptance is taken at the deselect. A frame that its
payload length does not delimit is no frame (log 21). -/
def execSubmit (p : Port) (f : SubmitFrame) (clocked : Nat) (s : State) : Host.Outcome State Fault Refusal :=
  if f.delimited then .next (s.endFrame p (submitFrame f) (submitDecision (s.port p) f) clocked) else .next s

/-! ## FETCH and the status reads (R55, R156, R157) -/

/-- R55: the record a FETCH chooses, with its effect at the deselect. -/
def fetchDecision (x : PortState) : Decision :=
  match x.completions with
  | [] => ⟨emptyRecord, .fetched none⟩
  | c :: _ => ⟨c.bytes, .fetched (some c.bytes.length)⟩

/-- FETCH (R55): the head completion record, or the empty record, is chosen when the opener is taken. -/
def execFetch (p : Port) (clocked : Nat) (s : State) : Host.Outcome State Fault Refusal :=
  .next (s.endFrame p [TransactionKind.fetch.opener] (fetchDecision (s.port p)) clocked)

/-- R156: the decision of a READ_STATUS: the port's own snapshot. -/
def statusDecision (s : State) (p : Port) : Decision := ⟨s.snapshotBytes p, .nothing⟩

/-- READ_STATUS (R156): the snapshot is taken when the opener is taken. -/
def execReadStatus (p : Port) (clocked : Nat) (s : State) : Host.Outcome State Fault Refusal :=
  .next (s.endFrame p [TransactionKind.readStatus.opener] (statusDecision s p) clocked)

/-- R157: the decision of a READ_PEER_STATUS: DONE and the target's snapshot at the administrator port with a target
from 0 to 3, REFUSED otherwise. -/
def peerStatusDecision (s : State) (p : Port) (target : Byte) : Decision :=
  match portOfByte target with
  | some t =>
    if p = s.admin then ⟨Ack.done.code :: s.snapshotBytes t, .nothing⟩ else ⟨[Ack.refused.code], .nothing⟩
  | none => ⟨[Ack.refused.code], .nothing⟩

/-- READ_PEER_STATUS (R157): decided when the target byte is taken. -/
def execReadPeerStatus (p : Port) (target : Byte) (clocked : Nat) (s : State) : Host.Outcome State Fault Refusal :=
  .next (s.endFrame p [TransactionKind.readPeerStatus.opener, target] (peerStatusDecision s p target) clocked)

/-! ## Checked immediate requests (R149 to R151) -/

/-- R149, R150: the decision of a checked immediate request of a port: BAD_CHECK where the check fails, else REFUSED
where it is not allowed now, else DONE with its effect. `bytes` are the frame's bytes before the check byte. -/
def checkedDecision (x : PortState) (bytes : List Byte) (check : Byte) (allowed : Bool) (effect : Effect) : Decision :=
  if !x.checkPasses bytes check then ⟨[Ack.badCheck.code], .nothing⟩
  else if !allowed then ⟨[Ack.refused.code], .nothing⟩
  else ⟨[Ack.done.code], effect⟩

/-- The end of the frame of a checked immediate request of port p: the opener of its kind, its further bytes before
the check byte, the check byte. -/
def State.endChecked (s : State) (p : Port) (kind : TransactionKind) (more : List Byte) (check : Byte)
    (allowed : Bool) (effect : Effect) (clocked : Nat) : State :=
  s.endFrame p (kind.opener :: more ++ [check])
    (checkedDecision (s.port p) (kind.opener :: more) check allowed effect) clocked

/-- WRITE_ENABLE (R57): sets the latch at the deselect. -/
def execWriteEnable (p : Port) (check : Byte) (clocked : Nat) (s : State) : Host.Outcome State Fault Refusal :=
  .next (s.endChecked p .writeEnable [] check true .setLatch clocked)

/-- WRITE_DISABLE (R57): clears the latch at the deselect. -/
def execWriteDisable (p : Port) (check : Byte) (clocked : Nat) (s : State) : Host.Outcome State Fault Refusal :=
  .next (s.endChecked p .writeDisable [] check true .clearLatch clocked)

/-- CLEAR_EVENTS (R160): the named sticky events become absent at the deselect. -/
def execClearEvents (p : Port) (events check : Byte) (clocked : Nat) (s : State) : Host.Outcome State Fault Refusal :=
  .next (s.endChecked p .clearEvents [events] check true (.clearEvents events) clocked)

/-- SET_EVENT_ENABLES (R162): the enable set is replaced whole at the deselect. -/
def execSetEventEnables (p : Port) (enables check : Byte) (clocked : Nat) (s : State) :
    Host.Outcome State Fault Refusal :=
  .next (s.endChecked p .setEventEnables [enables] check true (.setEnables enables) clocked)

/-- CLEAR_CAUSES (R165): the named cause flags are cleared at the deselect. -/
def execClearCauses (p : Port) (causes check : Byte) (clocked : Nat) (s : State) : Host.Outcome State Fault Refusal :=
  .next (s.endChecked p .clearCauses [causes] check true (.clearCauses causes) clocked)

/-- R118: CONFIRM_BOOT is DONE in TRIAL and UNCONFIRMED, REFUSED in OFF and RUNNING. -/
def PortState.mayConfirm (x : PortState) : Bool := x.bootState == .trial || x.bootState == .unconfirmed

/-- CONFIRM_BOOT (R118): the boot is confirmed at the deselect. -/
def execConfirmBoot (p : Port) (check : Byte) (clocked : Nat) (s : State) : Host.Outcome State Fault Refusal :=
  .next (s.endChecked p .confirmBoot [] check (s.port p).mayConfirm .confirmBoot clocked)

/-- SERVICE (R121): DONE while the watchdog runs; the code acts at the deselect. -/
def execService (p : Port) (code check : Byte) (clocked : Nat) (s : State) : Host.Outcome State Fault Refusal :=
  .next (s.endChecked p .service [code] check (s.port p).watchdog.isRunning (.service code) clocked)

/-- RESTART (R123): a pulse of the port's own master starts at the deselect. -/
def execRestart (p : Port) (check : Byte) (clocked : Nat) (s : State) : Host.Outcome State Fault Refusal :=
  .next (s.endChecked p .restart [] check true .restart clocked)

end Sys2Proof.Machine
end

