-- ==== Sys2Proof/Machine/QueueEvents.lean ====
section
/-! DEFINITION. The Request Queue's own events: PRESENTATION (R48) and DEADLINE_EXPIRY (R51, R52). -/

namespace Sys2Proof.Machine

open Sys2Proof

/-- PRESENTATION (R48): the oldest queued request of a port with no current request is presented; no effect where none
is due (log 2; between commands none is, log 4). -/
def execPresentation (p : Port) (s : State) : Host.Outcome State Fault Refusal :=
  if (s.port p).presentable then .next (s.present p).finish else .next s

/-- The bank where port p's current request waits as a candidate that has not been granted (R52). -/
def State.waitsUngranted (s : State) (p : Port) : Option BankId :=
  allBanks.find? fun b => ((s.bank b).candidate p).any fun c => !c.granted

/-- R51: the queued request at a place of port p's queue receives an expiry mark. -/
def State.markExpired (s : State) (p : Port) (place : Nat) (q : Queued) : State :=
  s.modPort p fun x => { x with queue := x.queue.set place { q with timer := .stopped, expired := true } }

/-- R52: port p's current request leaves bank b's candidate set and completes EXPIRED. -/
def State.expireCandidate (s : State) (p : Port) (b : BankId) : State :=
  (s.modBank b fun k => k.setCandidate p none).completeBare p .expired

/-- DEADLINE_EXPIRY (R51, R52): the timer of a queued request, or of a current request that waits ungranted at a bank,
runs out; no effect where the timer named does not run (log 2). -/
def execDeadlineExpiry (p : Port) (which : Timed) (s : State) : Host.Outcome State Fault Refusal :=
  match which with
  | .queued place =>
    match (s.port p).queue[place]? with
    | none => .next s
    | some q => if q.timer.isRunning then .next (s.markExpired p place q) else .next s
  | .current =>
    match (s.port p).current, s.waitsUngranted p with
    | some c, some b => if c.timer.isRunning then .next (s.expireCandidate p b).finish else .next s
    | _, _ => .next s

end Sys2Proof.Machine
end

