-- ==== Sys2Proof/Machine/StoreEvents.lean ====
section
/-! DEFINITION. The Configuration Store's events (Chapter 8): the beginning and the completion of a write of the block,
the start-up sequence and the load, and the resets of the whole part. -/

namespace Sys2Proof.Machine

open Sys2Proof

/-- CONFIGURATION_WRITE_BEGIN (R134): a write that is asked for begins; no effect where the writer is WRITING or nothing
asks for a write (log 2, log 27). -/
def execConfigurationWriteBegin (s : State) : Host.Outcome State Fault Refusal :=
  if s.writeDue then .next s.beginWrite.finish else .next s

/-- CONFIGURATION_WRITE_COMPLETE (R137): the write in progress completes; no effect where the writer is IDLE. -/
def execConfigurationWriteComplete (s : State) : Host.Outcome State Fault Refusal :=
  match s.writer.snapshot with
  | some image => .next (s.completeWrite image).finish
  | none => .next s

/-- POWER_ON_RESET (R20, R62, R139, R140, R166): the whole part is reset; cause flags are POWER_ON alone. -/
def execPowerOnReset (s : State) : Host.Outcome State Fault Refusal :=
  .next (s.hardReset .resetTaken fun _ => Cause.powerOn.mask).refreshLed

/-- DEVICE_RESET (R18, R20, R62, R139, R140, R166): the whole part is reset; DEVICE_RESET is added to the cause flags
held. No effect without power (log 13). -/
def execDeviceReset (s : State) : Host.Outcome State Fault Refusal :=
  if s.startUp = .unpowered then .next s
  else .next (s.hardReset .resetTaken fun p => (s.port p).causes ||| Cause.deviceReset.mask).refreshLed

/-- LOSS_OF_POWER (R18, R139): every slot and any configuration write is cut; what the part held in volatile state is
gone, and it does nothing until power-on reset (log 13). -/
def execLossOfPower (s : State) : Host.Outcome State Fault Refusal :=
  .next (s.hardReset .unpowered fun _ => 0).refreshLed

/-- R141: the administrator port that the straps name, ADMSEL1 the more significant. -/
def strapPort (admsel1 admsel0 : Bool) : Port :=
  match admsel1, admsel0 with
  | false, false => 0
  | false, true => 1
  | true, false => 2
  | true, true => 3

/-- START_UP_BEGIN (R140, R141): the start-up sequence begins after a reset and samples the straps once; no effect in
any other start-up state (log 2, log 23). -/
def execStartUpBegin (admsel1 admsel0 : Bool) (s : State) : Host.Outcome State Fault Refusal :=
  if s.startUp = .resetTaken then .next { s with startUp := .loading, admin := strapPort admsel1 admsel0 }
  else .next s

/-- LOAD_COMPLETE (R142, R144): the load of the start-up sequence completes and start-up ends; no effect where no load
is running. -/
def execLoadComplete (s : State) : Host.Outcome State Fault Refusal :=
  if s.startUp = .loading then .next s.loadTables.finish else .next s

end Sys2Proof.Machine
end

