-- ==== Sys2Proof/Machine/Dispatch.lean ====
section
/-! DEFINITION. The meaning of each command: one arm per row of spec/opcode_table.json. -/

namespace Sys2Proof.Machine

open Sys2Proof

/-- The effect of a command on everything but the queue of waiting commands. -/
def exec (i : Instr) (s : State) : Host.Outcome State Fault Refusal :=
  match i with
  | .powerOnReset => Sys2Proof.Machine.execPowerOnReset s
  | .deviceReset => Sys2Proof.Machine.execDeviceReset s
  | .startUpBegin admsel1 admsel0 => Sys2Proof.Machine.execStartUpBegin admsel1 admsel0 s
  | .loadComplete => Sys2Proof.Machine.execLoadComplete s
  | .transactionStart start => Sys2Proof.Machine.execTransactionStart start s
  | .unknownOpener port opener clocked => Sys2Proof.Machine.execUnknownOpener port opener clocked s
  | .deselect port bytes => Sys2Proof.Machine.execDeselect port bytes s
  | .selectHoldLimit port bytes => Sys2Proof.Machine.execSelectHoldLimit port bytes s
  | .directRead port address clocked => Sys2Proof.Machine.execDirectRead port address clocked s
  | .submit port frame clocked => Sys2Proof.Machine.execSubmit port frame clocked s
  | .fetch port clocked => Sys2Proof.Machine.execFetch port clocked s
  | .readStatus port clocked => Sys2Proof.Machine.execReadStatus port clocked s
  | .readPeerStatus port target clocked => Sys2Proof.Machine.execReadPeerStatus port target clocked s
  | .writeEnable port check clocked => Sys2Proof.Machine.execWriteEnable port check clocked s
  | .writeDisable port check clocked => Sys2Proof.Machine.execWriteDisable port check clocked s
  | .clearEvents port events check clocked => Sys2Proof.Machine.execClearEvents port events check clocked s
  | .setEventEnables port enables check clocked => Sys2Proof.Machine.execSetEventEnables port enables check clocked s
  | .clearCauses port causes check clocked => Sys2Proof.Machine.execClearCauses port causes check clocked s
  | .confirmBoot port check clocked => Sys2Proof.Machine.execConfirmBoot port check clocked s
  | .service port code check clocked => Sys2Proof.Machine.execService port code check clocked s
  | .restart port check clocked => Sys2Proof.Machine.execRestart port check clocked s
  | .presentation port => Sys2Proof.Machine.execPresentation port s
  | .deadlineExpiry port request => Sys2Proof.Machine.execDeadlineExpiry port request s
  | .readGrant bank => Sys2Proof.Machine.execReadGrant bank s
  | .writeGrant bank => Sys2Proof.Machine.execWriteGrant bank s
  | .writeStart bank => Sys2Proof.Machine.execWriteStart bank s
  | .suspendComplete bank => Sys2Proof.Machine.execSuspendComplete bank s
  | .resume bank => Sys2Proof.Machine.execResume bank s
  | .readComplete bank => Sys2Proof.Machine.execReadComplete bank s
  | .programComplete bank => Sys2Proof.Machine.execProgramComplete bank s
  | .sectorEraseComplete bank => Sys2Proof.Machine.execSectorEraseComplete bank s
  | .pulseRelease port => Sys2Proof.Machine.execPulseRelease port s
  | .bootTimerExpiry port => Sys2Proof.Machine.execBootTimerExpiry port s
  | .watchdogHalf port => Sys2Proof.Machine.execWatchdogHalf port s
  | .watchdogExpiry port => Sys2Proof.Machine.execWatchdogExpiry port s
  | .configurationWriteBegin => Sys2Proof.Machine.execConfigurationWriteBegin s
  | .configurationWriteComplete => Sys2Proof.Machine.execConfigurationWriteComplete s
  | .lossOfPower => Sys2Proof.Machine.execLossOfPower s

end Sys2Proof.Machine
end

