-- ==== Sys2Proof/WellFormed.lean ====
section
/-! DEFINITION. Well-formed commands: terms that spell something the outside world can send. A command term that is
not well formed stands for no event of the part (log 21). -/

namespace Sys2Proof

/-- R89: fewer than 312,500 bytes can be clocked in one transaction. -/
def clockedWf (n : Nat) : Bool := n < Config.transactionBytes

/-- Whether a command term spells an event that can reach the part: byte counts within R89, a transaction that begins
with no more than an unfinished frame (R147), an unknown opener that is indeed unknown (R146), a SUBMIT frame delimited by
its payload length (R148), a queue place that exists (R47). -/
def Instr.wf : Instr → Bool
  | .powerOnReset => true
  | .deviceReset => true
  | .startUpBegin _ _ => true
  | .loadComplete => true
  | .transactionStart start => frameUnfinished start.bytes
  | .unknownOpener _ b n => !knownOpener b && clockedWf n
  | .deselect _ bytes => clockedWf bytes.length
  | .selectHoldLimit _ bytes => clockedWf bytes.length
  | .directRead _ _ n => clockedWf n
  | .submit _ f n => f.delimited && clockedWf n
  | .fetch _ n => clockedWf n
  | .readStatus _ n => clockedWf n
  | .readPeerStatus _ _ n => clockedWf n
  | .writeEnable _ _ n => clockedWf n
  | .writeDisable _ _ n => clockedWf n
  | .clearEvents _ _ _ n => clockedWf n
  | .setEventEnables _ _ _ n => clockedWf n
  | .clearCauses _ _ _ n => clockedWf n
  | .confirmBoot _ _ n => clockedWf n
  | .service _ _ _ n => clockedWf n
  | .restart _ _ n => clockedWf n
  | .presentation _ => true
  | .deadlineExpiry _ (.queued i) => i < Config.credits
  | .deadlineExpiry _ .current => true
  | .readGrant _ => true
  | .writeGrant _ => true
  | .writeStart _ => true
  | .suspendComplete _ => true
  | .resume _ => true
  | .readComplete _ => true
  | .programComplete _ => true
  | .sectorEraseComplete _ => true
  | .pulseRelease _ => true
  | .bootTimerExpiry _ => true
  | .watchdogHalf _ => true
  | .watchdogExpiry _ => true
  | .configurationWriteBegin => true
  | .configurationWriteComplete => true
  | .lossOfPower => true

end Sys2Proof
end

