-- ==== Sys2Proof/Safety.lean ====
section
/-! DEFINITION. The invariants of the part between commands, each as a decidable proposition about the state, and the
spec-shaped readings that statements use: answer bytes, cut ranges, places of a request. -/

namespace Sys2Proof.Machine

open Sys2Proof

/-! ## Invariants -/

/-- The array is in its canonical form (log 9). -/
abbrev State.arrayCanonical (s : State) : Prop := Memory.wf s.array

/-- R45: the credit that an ACCEPTED SUBMIT, decided and not yet taken, is about to use. -/
def PortState.promised (x : PortState) : Nat :=
  match x.transaction with
  | none => 0
  | some t =>
    match t.decision with
    | none => 0
    | some d =>
      match d.effect with
      | .accept _ => 1
      | _ => 0

/-- R46: no port ever uses more than 8 credits, the one promised included. -/
abbrev State.creditsWithinEight (s : State) : Prop :=
  ∀ p : Port, (s.port p).creditsInUse + (s.port p).promised ≤ Config.credits

/-- Table 7-1, Table 7-2, R116: what a boot record's fields allow together. -/
abbrev PortState.bootLegal (x : PortState) : Prop :=
  (1 ≤ x.boot.attemptLimit ∧ x.boot.attemptLimit ≤ 7)
  ∧ x.attempts ≤ x.boot.attemptLimit
  ∧ (x.attempts = x.boot.attemptLimit ↔ x.bootState = .failed)
  ∧ (x.bootState = .running → x.attempts = 0)
  ∧ (x.bootState = .off ↔ x.boot.enabled = false)
  ∧ (x.boot.enabled = false → x.attempts = 0 ∧ x.trial = none)
  ∧ (x.bootState = .held ↔ x.boot.enabled = true ∧ x.pulse.isRunning = true)
  ∧ (x.bootState = .trial → x.trial ≠ none)
  ∧ (x.trial = none ∨ x.trial = some x.boot.active.other)
  ∧ (x.bootTimer.isRunning = true ↔ x.bootState = .trial ∨ x.bootState = .unconfirmed)
  ∧ (x.watchdog.isRunning = true ↔ x.bootState = .running ∧ x.boot.watchdogPeriod ≠ .off)

/-- Whether a live transaction is in progress at a port: one that is neither ignored nor cut. -/
def PortState.hasLive (x : PortState) : Bool := x.transaction.any Transaction.isLive

/-- R113, R154, R155: the boot records are legal, and a port whose master is held has no live transaction. -/
abbrev State.bootRecordsLegal (s : State) : Prop :=
  (∀ p : Port, (s.port p).bootLegal) ∧ ∀ p : Port, s.ignoresTransactions p = true → (s.port p).hasLive = false

/-- Whether an image, if there is one, passes the consistency test of R132. -/
abbrev imageConsistent (i : Option ConfigImage) : Prop := i.all ConfigImage.consistent = true

/-- R22, R24, R41, R131, R132: the tables are tables the part could hold, an image in the block passes both tests, and so
will the snapshot of a write in progress. -/
abbrev State.tablesConsistent (s : State) : Prop :=
  s.snapshot.consistent = true ∧ s.block.all StoredImage.valid = true ∧ imageConsistent s.writer.snapshot

/-- Whether a target is a program's. -/
def WriteTarget.isProgram : WriteTarget → Bool
  | .program _ _ _ => true
  | .sectorErase _ => false

/-- R7, R9, R13, Table 1-5: what the slots and counts of a bank allow together. -/
def Bank.legal (k : Bank) : Bool :=
  match k.writeSlot with
  | .none => k.suspendCount == 0
  | .busy .starting _ => k.suspendCount == 0
  | .busy .programming op => op.target.isProgram && k.readSlot.isNone && k.openStreams == 0 && k.suspendCount == 0
  | .busy .erasing op =>
    !op.target.isProgram && k.readSlot.isNone && k.openStreams == 0 && decide (k.suspendCount ≤ Config.suspendLimit)
  | .busy .suspending op =>
    !op.target.isProgram && k.readSlot.isNone && k.openStreams == 0 && decide (k.suspendCount < Config.suspendLimit)
  | .busy .suspended op =>
    !op.target.isProgram && decide (1 ≤ k.suspendCount) && decide (k.suspendCount ≤ Config.suspendLimit)

/-- The number of ports whose open stream is at a bank. -/
def State.streamsAt (s : State) (b : BankId) : Nat :=
  (allPorts.filter fun p => (s.port p).stream.any fun t => t.bank == b).length

/-- R88, R89, R92: an open stream belongs to a live transaction that was answered GO, and its next address is in its
region. -/
def PortState.streamLegal (x : PortState) : Bool :=
  match x.stream with
  | none => true
  | some t =>
    decide (t.base ≤ t.next) && decide (t.next < t.base + t.size) && x.hasLive
      && (x.transaction.bind Transaction.decision).any fun d => d.effect == .stream

/-- R7 to R14, R88, R92: the banks are legal and their open-stream counts count the open streams. -/
abbrev State.banksLegal (s : State) : Prop :=
  (∀ b : BankId, (s.bank b).legal = true ∧ (s.bank b).openStreams = s.streamsAt b)
  ∧ ∀ p : Port, (s.port p).streamLegal = true

/-- R140: what a port may hold while the part is not READY: the reset values, its cause flags, its select line, and a
transaction that is ignored. The values of windows, settings and stored boot fields before the load are the model's
(log 10). -/
abbrev PortState.blank (x : PortState) : Prop :=
  { x with selected := false, transaction := none, sdo := [] } = PortState.reset x.causes ∧ x.hasLive = false

/-- R140: while the part is not READY, banks, ports and writer hold their reset values; without power too, which is the
model's (log 13). -/
abbrev State.startUpBlank (s : State) : Prop :=
  s.startUp ≠ .ready →
    (∀ b : BankId, s.bank b = Bank.reset) ∧ s.writer = Writer.reset ∧ ∀ p : Port, (s.port p).blank

/-- The number of places of port p at a bank: its entry in the candidate set and the slots it owns. -/
def Bank.placesOf (k : Bank) (p : Port) : Nat :=
  (if (k.candidate p).isSome then 1 else 0)
  + (if k.readSlot.any (fun op => op.owner == .port p) then 1 else 0)
  + (match k.writeSlot with
      | .none => 0
      | .busy _ op => if op.owner = .port p then 1 else 0)

/-- Whether a target is a verify chunk's. -/
def CandidateTarget.isVerify : CandidateTarget → Bool
  | .verifyChunk _ => true
  | _ => false

/-- R97: a verify chunk of port p, waiting or in the read slot, has its verify record. -/
abbrev State.verifyRecordKept (s : State) (b : BankId) (p : Port) : Prop :=
  (((s.bank b).candidate p).any (fun c => c.target.isVerify) = true → (s.verifyOf p).isSome = true)
  ∧ ((s.bank b).readSlot.any (fun op => op.owner == .port p && op.kind == .verifyChunk) = true
      → (s.verifyOf p).isSome = true)

/-- The places of port p at both banks. -/
def State.placesOf (s : State) (p : Port) : Nat := (s.bank 0).placesOf p + (s.bank 1).placesOf p

/-- R133: whether a STORE_CONFIG of port p waits for the writer or is carried by its write. -/
def State.storesFor (s : State) (p : Port) : Bool := p == s.admin && (s.writer.waiting || s.writer.carried)

/-- R48, R49, R64: a current request that runs at a bank stands in exactly one place there; one that does not is the
administrator port's STORE_CONFIG, waiting or carried; a port with no current request stands nowhere. -/
def State.requestPlaced (s : State) (p : Port) : Bool :=
  match (s.port p).current with
  | none => s.placesOf p == 0 && !s.storesFor p
  | some cur =>
    if cur.request.kind.isBankKind then s.placesOf p == 1 && !s.storesFor p
    else s.placesOf p == 0 && s.storesFor p && cur.request.kind == .storeConfig

/-- R64, R97, R133: every current request stands in its one place, and a carried STORE_CONFIG has its write. -/
abbrev State.requestsPlaced (s : State) : Prop :=
  (∀ p : Port, s.requestPlaced p = true) ∧ (∀ b : BankId, ∀ p : Port, s.verifyRecordKept b p)
  ∧ (s.writer.carried = true → s.writer.snapshot.isSome = true ∧ s.writer.waiting = false)

/-- R129: STLED shows the condition that holds. -/
abbrev State.ledShown (s : State) : Prop := s.led.display = s.ledCondition

/-! ## What is due inside an event -/

/-- No step is due at a bank: no STARTING write is free to start (R9), no entry may be granted (R67, R68), no waiting read
asks a suspend of an ERASING erase below its limit (R12), and no SUSPENDED erase is free to resume (R14). -/
def Bank.nothingDue (k : Bank) : Prop :=
  (∀ op, k.writeSlot = .busy .starting op → k.readSlot ≠ none ∨ k.openStreams ≠ 0)
  ∧ (∀ (p : Port) (c : Candidate), k.candidate p = some c →
      (c.target.isRead = true →
        k.readSlot ≠ none ∨ k.writeSlot ≠ .none ∧ ∀ op, k.writeSlot ≠ .busy .suspended op)
      ∧ (c.target.isRead = false → k.writeSlot ≠ .none))
  ∧ (∀ op, k.writeSlot = .busy .erasing op → k.suspendCount < 8 →
      ∀ (p : Port) (c : Candidate), k.candidate p = some c → c.target.isRead = false)
  ∧ ∀ op, k.writeSlot = .busy .suspended op →
      k.readSlot ≠ none ∨ k.openStreams ≠ 0
        ∨ ∃ (p : Port) (c : Candidate), k.candidate p = some c ∧ c.target.isRead = true

/-- Nothing is due: no port without a current request has a queued one (R48), the writer is not IDLE beside a waiting
STORE_CONFIG or commit-pending (R134, R137), and no step is due at either bank. -/
def State.nothingDue (s : State) : Prop :=
  (∀ p : Port, (s.port p).current = none → (s.port p).queue = [])
  ∧ (s.writer.snapshot = none → s.writer.waiting = false ∧ s.writer.commitPending = false)
  ∧ ∀ b : BankId, (s.bank b).nothingDue

/-! ## Readings used in statements -/

/-- n bytes of an answer followed by filler (R145). -/
def answerBytes (answer : List Byte) (n : Nat) : List Byte := (answer ++ List.replicate n Config.filler).take n

/-- The frame bytes that port p's transaction has taken so far; none where no transaction is in progress. -/
def State.sent (s : State) (p : Port) : List Byte :=
  match (s.port p).transaction with
  | none => []
  | some t => t.frame

/-- Port p has taken none or some of the first bytes of this frame in a transaction that is timed, neither ignored nor cut,
and not decided (R145, R147). -/
abbrev State.inFrame (s : State) (p : Port) (frame : List Byte) : Prop :=
  s.sent p <+: frame
  ∧ (s.port p).transaction
      = some ⟨false, false, false, kindOfFrame (s.sent p), s.sent p, (s.sent p).length, .running 50, none⟩

/-- Port p after the rest of a frame was taken, decided, and n bytes of its answer clocked (R145, R147): 0xFF for each byte
of the frame, then the answer, then filler. -/
def State.framed (s : State) (p : Port) (frame answer : List Byte) (effect : Effect) (n : Nat) : State :=
  s.setPort p { s.port p with
    transaction := some ⟨false, false, false, kindOfFrame frame, frame, frame.length + n, .running 50,
      some ⟨answer, effect⟩⟩
    sdo := (s.port p).sdo
      ++ (List.replicate (frame.length - (s.sent p).length) Config.filler ++ answerBytes answer n) }

/-- The last n bytes that the part sends in a transaction with no stream open: filler where it is ignored, cut, silenced
or undecided, else what is left of its answer and then filler (R145). -/
def Transaction.lastBytes (t : Transaction) (n : Nat) : List Byte :=
  if t.ignored || t.cut || t.silenced then List.replicate n Config.filler
  else
    match t.decision with
    | none => List.replicate n Config.filler
    | some d => answerBytes (d.answer.drop (t.taken - t.frame.length)) n

/-- A port after the deselect of its transaction t, n more bytes clocked, where nothing else changes. -/
def PortState.deselected (x : PortState) (t : Transaction) (n : Nat) : PortState :=
  { x with selected := false, transaction := none, sdo := x.sdo ++ t.lastBytes n }

/-- The addresses of the next n bytes of a stream (R89). -/
def Stream.nextAddresses (t : Stream) (n : Nat) : List Nat :=
  (List.range n).map fun i => t.base + (t.next - t.base + i) % t.size

/-- The bytes of a DIRECT_READ frame (Table 9-2, R168). -/
def directReadBytes (a : LogicalAddress) : List Byte :=
  [0x31, BitVec.ofNat 8 (a.toNat / 65536), BitVec.ofNat 8 (a.toNat / 256), BitVec.ofNat 8 a.toNat]

/-- The port, the bytes of the frame, and the number of bytes clocked after it of a command that ends a frame
(Table 9-2). -/
def frameOf : Instr → Option (Port × List Byte × Nat)
  | .unknownOpener p b n => some (p, [b], n)
  | .directRead p a n => some (p, directReadBytes a, n)
  | .submit p f n => some (p, submitFrame f, n)
  | .fetch p n => some (p, [0x53], n)
  | .readStatus p n => some (p, [0x54], n)
  | .readPeerStatus p target n => some (p, [0x55, target], n)
  | .writeEnable p c n => some (p, [0x61, c], n)
  | .writeDisable p c n => some (p, [0x62, c], n)
  | .clearEvents p b c n => some (p, [0x63, b, c], n)
  | .setEventEnables p b c n => some (p, [0x64, b, c], n)
  | .clearCauses p b c n => some (p, [0x65, b, c], n)
  | .confirmBoot p c n => some (p, [0x71, c], n)
  | .service p b c n => some (p, [0x72, b, c], n)
  | .restart p c n => some (p, [0x73, c], n)
  | _ => none

/-- Port p has no current request and this request at the head of its queue (R48). -/
abbrev State.heads (s : State) (p : Port) (q : Queued) (rest : List Queued) : Prop :=
  (s.port p).current = none ∧ (s.port p).queue = q :: rest

/-- Port p after its request r, at the head of its queue before `rest`, was presented and completed at once with a
status and no data (R48, R50). -/
def State.answered (s : State) (p : Port) (rest : List Queued) (r : Request) (st : Status) : State :=
  s.setPort p { s.port p with
    queue := rest
    current := none
    completions := (s.port p).completions ++ [⟨r.tag, r.kind, st, false, []⟩] }

/-- Port p after its request r became current with a timer, a carried range and a verify record (R48, R97). -/
def State.madeCurrent (s : State) (p : Port) (rest : List Queued) (cur : Current) : State :=
  s.setPort p { s.port p with queue := rest, current := some cur }

/-- Port p after its current request, of this tag and kind, completed (R50). -/
def State.finished (s : State) (p : Port) (r : Request) (st : Status) (wrapped : Bool) (data : List Byte) : State :=
  s.setPort p { s.port p with
    current := none
    completions := (s.port p).completions ++ [⟨r.tag, r.kind, st, wrapped, data⟩] }

/-- The first address and the length of the bytes that a cut leaves unspecified (Table 1-7). -/
def WriteSlot.cutRange : WriteSlot → Option (Nat × Nat)
  | .busy .programming ⟨_, .program page _ _, _⟩ => some (page, Config.pageBytes)
  | .busy .erasing ⟨_, .sectorErase sector, _⟩ => some (sector * Config.sectorBytes, Config.sectorBytes)
  | .busy .suspending ⟨_, .sectorErase sector, _⟩ => some (sector * Config.sectorBytes, Config.sectorBytes)
  | .busy .suspended ⟨_, .sectorErase sector, _⟩ => some (sector * Config.sectorBytes, Config.sectorBytes)
  | _ => Option.none

/-- Whether a cut now leaves the byte at an address unspecified (R18). -/
def State.cutCovers (s : State) (a : Nat) : Bool :=
  allBanks.any fun b => (s.bank b).writeSlot.cutRange.any fun r => decide (r.1 ≤ a) && decide (a < r.1 + r.2)

end Sys2Proof.Machine
end

