-- ==== Sys2Proof/Certificates/Slice0/Obligations.lean ====
section
/-! DEFINITION. The statements about the part, family by family. In all of them `finish` is the end of an event: what is
due inside the same event, and STLED's condition. -/

section

open Sys2Proof Sys2Proof.Machine

/-! ## The queue of commands, resets and start-up -/

/-- A step takes the command at the front of the queue and runs it on the rest; an empty queue idles (log 1). -/
def Obligations.StepRunsTheFrontCommand : Prop :=
  (∀ (c : Instr) (rest : List Instr) (s : State),
    step { s with pending := c :: rest } = exec c { s with pending := rest })
  ∧ ∀ s : State, s.pending = [] → step s = .next s

/-- No command ends in a fault or a refusal, and none touches the queue of waiting commands. -/
def Obligations.EveryCommandAnswersANextState : Prop :=
  ∀ (c : Instr) (s : State), ∃ t : State, exec c s = .next t ∧ t.pending = s.pending

/-- R20, R57, R62, R88, R109, R133, R139, R140, R145, R162, R166: what the three resets of the whole part leave. The tables,
the settings and the stored fields of the boot records before the load (log 10), the administrator port (log 11), the part
without power (log 13), the block as an image or none (log 14), the record of bytes sent (log 7) and the select lines
(log 19) are the model's. -/
def Obligations.ResetsGiveEveryBlockItsResetValues : Prop :=
  ∀ (c : Instr) (s : State),
    c = .powerOnReset ∨ c = .lossOfPower ∨ c = .deviceReset ∧ s.startUp ≠ .unpowered →
    ∃ t : State, exec c s = .next t
      ∧ (∀ b : BankId, t.bank b = ⟨none, .none, 0, 0, 0, #v[none, none, none, none], none⟩)
      ∧ (∀ p : Port,
          t.port p = {
            selected := (s.port p).selected
            transaction := none
            sdo := []
            latch := false
            stream := none
            queue := []
            current := none
            completions := []
            settings := ⟨true, .off⟩
            windows := #v[none, none, none, none]
            sticky := 0
            enables := 0
            causes := if c = .powerOnReset then 0x01 else if c = .deviceReset then (s.port p).causes ||| 0x02 else 0
            boot := ⟨false, 0, 1, .a, 3, .s4, .off⟩
            trial := none
            attempts := 0
            bootState := .off
            expected := .x96
            bootTimer := .stopped
            watchdog := .stopped
            pulse := .stopped })
      ∧ (∀ n : RegionId, t.region n = .unused)
      ∧ t.writer = ⟨none, false, false, false⟩
      ∧ t.block = (if s.writer.snapshot = none then s.block else none)
      ∧ t.startUp = (if c = .lossOfPower then .unpowered else .resetTaken)
      ∧ t.led.display = (if c = .lossOfPower then .off else .steady)
      ∧ t.admin = s.admin
      ∧ ∀ p : Port, (t.mrstAsserted p = true ↔ c ≠ .lossOfPower) ∧ t.attnAsserted p = false

/-- R18, R19: a cut leaves every byte of the page or sector under way at an unspecified value, and every other byte as it
was. That the unspecified value is a free byte, drawn afresh for that byte alone, is the model's choice (log 8). -/
def Obligations.ResetCutsTheWriteInProgress : Prop :=
  ∀ (c : Instr) (s : State),
    c = .powerOnReset ∨ c = .lossOfPower ∨ c = .deviceReset ∧ s.startUp ≠ .unpowered →
    s.arrayCanonical →
    ∃ t : State, exec c s = .next t ∧ ∃ drawn : Nat → Nat,
      (∀ a, s.cutCovers a = false → t.array.read a = s.array.read a)
      ∧ (∀ a, s.cutCovers a = true →
          t.array.read a = Config.freeByte (drawn a) ∧ s.freeCount ≤ drawn a ∧ drawn a < t.freeCount)
      ∧ ∀ a b, s.cutCovers a = true → s.cutCovers b = true → drawn a = drawn b → a = b

/-- R141: the start-up sequence names the administrator port by the straps, ADMSEL1 the more significant, and nothing
else ever changes it. That START_UP_BEGIN has no effect in any other start-up state (log 2, log 23), and that the number
stays through resets and loss of power until the next sample (log 11), are the model's. -/
def Obligations.StrapsNameTheAdministrator : Prop :=
  (∀ (hi lo : Bool) (s : State), s.startUp = .resetTaken →
    ∃ admin : Port, admin.val = 2 * hi.toNat + lo.toNat
      ∧ exec (.startUpBegin hi lo) s = .next { s with startUp := .loading, admin := admin })
  ∧ (∀ (hi lo : Bool) (s : State), s.startUp ≠ .resetTaken → exec (.startUpBegin hi lo) s = .next s)
  ∧ ∀ (c : Instr) (s t : State), exec c s = .next t → t.admin ≠ s.admin →
      ∃ hi lo, c = .startUpBegin hi lo ∧ s.startUp = .resetTaken

/-- R128, R132, R142, R143, R144: the load fills the tables from a valid image or from the defaults, start-up ends, and a
pulse with no cause of its own starts on every port; an image is valid when its check value is the CRC-32 of its bytes and
its fields are consistent, as spelled out. That the block holds an image or none, and the bytes of an image, are the model's
(log 14), and so is that the load has no effect where none is running (log 2). -/
def Obligations.LoadFillsTheTables : Prop :=
  (∀ s : State, s.startUp = .loading → (∀ p : Port, (s.port p).hasLive = false) →
    ∃ t : State, exec .loadComplete s = .next t.finish ∧ t.startUp = .ready
      ∧ (∀ i check, s.block = some ⟨i, check⟩ → check = ~~~(crc32Bytes 0xFFFFFFFF i.bytes) → i.consistent = true →
          (∀ n : RegionId, t.region n = (i.regions[n]).stored)
          ∧ ∀ p : Port, (t.port p).windows = i.windows[p] ∧ (t.port p).boot = i.boot[p]
              ∧ (t.port p).settings = i.settings[p] ∧ (t.port p).sticky = (s.port p).sticky)
      ∧ ((∀ i check, s.block = some ⟨i, check⟩ →
            check ≠ ~~~(crc32Bytes 0xFFFFFFFF i.bytes) ∨ i.consistent = false) →
          (∀ n : RegionId,
            t.region n
              = if n.val < 2 then
                  .inUse false ⟨1024 * n.val, 1024⟩
                    (Vector.ofFn fun p : Fin 4 => if p = s.admin then Level.full else Level.read)
                else .unused)
          ∧ ∀ p : Port, (t.port p).windows = #v[some 0, some 1, none, none]
              ∧ (t.port p).boot = ⟨false, 0, 1, .a, 3, .s4, .off⟩
              ∧ (t.port p).settings = ⟨true, .off⟩
              ∧ (t.port p).sticky = if p = s.admin then (s.port p).sticky ||| 0x40 else (s.port p).sticky)
      ∧ ∀ p : Port, (t.port p).pulse = .running 10 ∧ (t.port p).enables = 0
          ∧ (t.port p).causes = (s.port p).causes ∧ (t.port p).queue = [] ∧ (t.port p).completions = []
          ∧ (t.port p).bootState = (if (t.port p).boot.enabled = true then .held else (s.port p).bootState)
          ∧ t.mrstAsserted p = true ∧ t.attnAsserted p = false)
  ∧ (∀ s : State, s.startUp ≠ .loading → exec .loadComplete s = .next s)
  ∧ ∀ i : ConfigImage, i.consistent = true ↔
      (∀ (n : RegionId) (q : SectorRange), (i.regions[n]).range? = some q →
        1 ≤ q.count ∧ q.count ≤ 1024 ∧ q.first + q.count ≤ 2048 ∧ (q.first + q.count ≤ 1024 ∨ 1024 ≤ q.first))
      ∧ (∀ (n m : RegionId) (q r : SectorRange), n ≠ m → (i.regions[n]).range? = some q →
        (i.regions[m]).range? = some r → q.first + q.count ≤ r.first ∨ r.first + r.count ≤ q.first)
      ∧ (∀ (p : Port) (w : Fin 4) (n : RegionId), (i.windows[p])[w] = some n → i.regions[n] ≠ .unused)
      ∧ ∀ (p : Port) (b : StoredBoot), i.boot[p] = b →
        1 ≤ b.attemptLimit ∧ b.attemptLimit ≤ 7
        ∧ (b.enabled = true →
            b.slotA ≠ b.slotB ∧ i.regions[b.slotA] ≠ .unused ∧ i.regions[b.slotB] ≠ .unused)

/-! ## Transactions and frames -/

/-- R145, R147, R148, R155: a transaction begins with its hold timer running, its kind from the opener and the bytes of its
unfinished frame taken, 0xFF sent for each; or it is ignored, not framed and not timed, while the part starts up, a pulse
lasts or the port is FAILED. A frame is unfinished while it is shorter than its kind has it. That a select that is active
already (log 2, log 19) and first bytes that would complete a frame (log 21) are no event, and that without power the select
line alone changes (log 13), are the model's choice. -/
def Obligations.TransactionStartBeginsOrIsIgnored : Prop :=
  (∀ (p : Port) (bytes : List Byte) (s : State),
    ((s.port p).selected = false → (s.port p).transaction = none → s.startUp ≠ .unpowered →
      (s.startUp ≠ .ready ∨ (s.port p).pulse.isRunning = true ∨ (s.port p).bootState = .failed) →
      exec (.transactionStart ⟨p, bytes⟩) s
        = .next (s.setPort p { s.port p with
            selected := true
            transaction := some ⟨true, false, false, none, [], bytes.length, .stopped, none⟩
            sdo := List.replicate bytes.length 0xFF }))
    ∧ ((s.port p).selected = false → (s.port p).transaction = none → s.startUp = .ready →
      (s.port p).pulse = .stopped → (s.port p).bootState ≠ .failed →
      (frameUnfinished bytes = true →
        exec (.transactionStart ⟨p, bytes⟩) s
          = .next (s.setPort p { s.port p with
              selected := true
              transaction :=
                some ⟨false, false, false, kindOfFrame bytes, bytes, bytes.length, .running 50, none⟩
              sdo := List.replicate bytes.length 0xFF }))
      ∧ (frameUnfinished bytes = false → exec (.transactionStart ⟨p, bytes⟩) s = .next s))
    ∧ ((s.port p).selected = false → (s.port p).transaction = none → s.startUp = .unpowered →
      exec (.transactionStart ⟨p, bytes⟩) s = .next (s.setPort p { s.port p with selected := true }))
    ∧ ((s.port p).selected = true ∨ (s.port p).transaction ≠ none →
      exec (.transactionStart ⟨p, bytes⟩) s = .next s))
  ∧ kindOfFrame [] = none ∧ frameUnfinished [] = true
  ∧ (∀ (b : Byte) (rest : List Byte), (∀ k : TransactionKind, k.opener ≠ b) →
      kindOfFrame (b :: rest) = none ∧ frameUnfinished (b :: rest) = false)
  ∧ ∀ (k : TransactionKind) (rest : List Byte) (len : Nat),
      (k = .fetch ∨ k = .readStatus) ∧ len = 1
        ∨ (k = .readPeerStatus ∨ k = .writeEnable ∨ k = .writeDisable ∨ k = .confirmBoot ∨ k = .restart) ∧ len = 2
        ∨ (k = .clearEvents ∨ k = .setEventEnables ∨ k = .clearCauses ∨ k = .service) ∧ len = 3
        ∨ k = .directRead ∧ len = 4
        ∨ k = .submit ∧ len = (if rest.length < 9 then 10
            else if (rest.getD 7 0).toNat * 256 + (rest.getD 8 0).toNat ≤ 256 then
              11 + ((rest.getD 7 0).toNat * 256 + (rest.getD 8 0).toNat)
            else 10) →
      kindOfFrame (k.opener :: rest) = some k
      ∧ (frameUnfinished (k.opener :: rest) = true ↔ rest.length + 1 < len)

/-- R146: an opener that names no kind is answered BAD_FRAME in the second byte, filler follows to the deselect, and the
transaction has no effect and raises no event. That the command with an opener that does name a kind is no event is the
model's choice (log 21). -/
def Obligations.UnknownOpenerIsBadFrame : Prop :=
  (∀ (p : Port) (opener : Byte) (n : Nat) (more : List Byte) (s : State), (∀ k : TransactionKind, k.opener ≠ opener) →
    s.inFrame p [opener] → s.sent p = [] → (s.port p).stream = none →
    exec (.unknownOpener p opener n) s = .next (s.framed p [opener] [0xA3] .nothing n)
    ∧ exec (.deselect p more) (s.framed p [opener] [0xA3] .nothing n)
        = .next (s.setPort p { s.port p with
            selected := false
            transaction := none
            sdo := (s.port p).sdo ++ (0xFF :: answerBytes [0xA3] (n + more.length)) }).finish)
  ∧ (∀ (p : Port) (k : TransactionKind) (n : Nat) (s : State), exec (.unknownOpener p k.opener n) s = .next s)
  ∧ TransactionKind.all.map TransactionKind.opener
      = [0x31, 0x52, 0x53, 0x54, 0x55, 0x61, 0x62, 0x63, 0x64, 0x65, 0x71, 0x72, 0x73]

/-- R25, R26, R28, R29: translation and the first three checks, in their order. -/
def Obligations.TranslationAndChecksInOrder : Prop :=
  (∀ (s : State) (p : Port) (a : LogicalAddress) (need : Level) (demand : Nat → Nat → Bool) (w : Fin 4),
    w.val = a.toNat / 0x400000 →
    ((s.port p).window w = none → s.access p a need demand = .failed .range)
    ∧ ∀ r locked range levels, (s.port p).window w = some r → s.region r = .inUse locked range levels →
      (levels[p].permits need = false → s.access p a need demand = .failed .denied)
      ∧ (levels[p].permits need = true → demand (a.toNat % 0x400000) range.size = false →
          s.access p a need demand = .failed .range)
      ∧ (levels[p].permits need = true → demand (a.toNat % 0x400000) range.size = true →
          s.access p a need demand = .ok r range (a.toNat % 0x400000)))
  ∧ ∀ l : Level, (l.permits .read = true ↔ l ≠ .none)
      ∧ (l.permits .write = true ↔ l = .write ∨ l = .full) ∧ (l.permits .full = true ↔ l = .full)

/-- R31: the protection test of a sector. -/
def Obligations.ProtectionOfASector : Prop :=
  ∀ (s : State) (sector : Nat),
    s.protectedSector sector = true ↔
      ∃ n locked range levels, s.region n = .inUse locked range levels
        ∧ range.first ≤ sector ∧ sector < range.first + range.count
        ∧ (locked = true
          ∨ (∃ p : Port, (s.port p).boot.enabled = true ∧ (s.port p).boot.activeRegion = n)
          ∨ ∃ (p : Port) (t : Slot), (s.port p).trial = some t ∧ (s.port p).boot.slot t = n)

/-- R2, R89: a byte read is the stored one where its sector is not under erase. Where it is, it is unspecified: a free byte
drawn afresh, a different draw for each place of the sample, which is the model's form of it (log 8). -/
def Obligations.ReadsReturnStoredOrFreeBytes : Prop :=
  (∀ (s : State) (as : List Nat) (n : Nat),
    (s.sample as n).1.length = as.length ∧ n ≤ (s.sample as n).2
    ∧ ∃ drawn : Nat → Nat,
      (∀ i a : Nat, as[i]? = some a →
        (s.underErase a = false → (s.sample as n).1[i]? = some (s.array.read a))
        ∧ (s.underErase a = true →
            n ≤ drawn i ∧ drawn i < (s.sample as n).2
            ∧ (s.sample as n).1[i]? = some (Config.freeByte (drawn i))))
      ∧ ∀ i j a b : Nat, as[i]? = some a → as[j]? = some b → s.underErase a = true → s.underErase b = true →
          drawn i = drawn j → i = j)
  ∧ ∀ (s : State) (a : Nat),
      s.underErase a = true ↔
        ∃ st owner chunk,
          (s.bank (if a < 0x400000 then 0 else 1)).writeSlot = .busy st ⟨owner, .sectorErase (a / 4096), chunk⟩
          ∧ (st = .erasing ∨ st = .suspending ∨ st = .suspended)

/-- R84 to R89: a DIRECT_READ is decided at address completion: the marker of the first failed check, NOT_READY behind a
write with the suspend it asks for, or GO with the stream open and its bytes following the marker. (A slot that is ERASING
is taken by Table 5-2 also right after a grant from NONE, log 29; bytes under erase are free bytes, log 8.) -/
def Obligations.DirectReadDecidesAtAddressCompletion : Prop :=
  ∀ (p : Port) (a : LogicalAddress) (n : Nat) (s : State), s.inFrame p (directReadBytes a) →
    (s.access p a .read (fun offset size => decide (offset < size)) = .failed .denied →
      exec (.directRead p a n) s = .next (s.framed p (directReadBytes a) [0xFF, 0xFF, 0xD2] .nothing n))
    ∧ (s.access p a .read (fun offset size => decide (offset < size)) = .failed .range →
      exec (.directRead p a n) s = .next (s.framed p (directReadBytes a) [0xFF, 0xFF, 0xD3] .nothing n))
    ∧ ∀ r range offset, s.access p a .read (fun offset size => decide (offset < size)) = .ok r range offset →
      (∀ st op, (s.bank range.bank).writeSlot = .busy st op →
        st = .starting ∨ st = .programming ∨ st = .suspending
          ∨ st = .erasing ∧ 8 ≤ (s.bank range.bank).suspendCount →
        exec (.directRead p a n) s = .next (s.framed p (directReadBytes a) [0xFF, 0xFF, 0xD1] .nothing n))
      ∧ (∀ op, (s.bank range.bank).writeSlot = .busy .erasing op → (s.bank range.bank).suspendCount < 8 →
        exec (.directRead p a n) s
          = .next ((s.setBank range.bank { s.bank range.bank with writeSlot := .busy .suspending op }).framed p
              (directReadBytes a) [0xFF, 0xFF, 0xD1] .nothing n))
      ∧ ((s.bank range.bank).writeSlot = .none ∨ (∃ op, (s.bank range.bank).writeSlot = .busy .suspended op) →
        exec (.directRead p a n) s
          = .next { (s.setBank range.bank
                { s.bank range.bank with openStreams := (s.bank range.bank).openStreams + 1 }).setPort p
              { s.port p with
                transaction := some ⟨false, false, false, some .directRead, directReadBytes a, 4 + n, .running 50,
                  some ⟨[0xFF, 0xFF, 0xD0], .stream⟩⟩
                stream := some ⟨range.bank, range.base, range.size,
                  range.base + (offset + (n - 3)) % range.size⟩
                sdo := (s.port p).sdo ++ (List.replicate (4 - (s.sent p).length) 0xFF ++ ([0xFF, 0xFF, 0xD0].take n
                  ++ (s.sample ((List.range (n - 3)).map fun i => range.base + (offset + i) % range.size)
                        s.freeCount).1)) } with
              freeCount := (s.sample ((List.range (n - 3)).map fun i => range.base + (offset + i) % range.size)
                s.freeCount).2 })

/-- R42, R169, R172, Table 11-6: a SUBMIT frame carries a request record exactly when its kind, count and payload length
fit, its kind byte being one of the sixteen codes. -/
def Obligations.WellFormedRequestRecords : Prop :=
  [RequestKind.read, .program, .eraseSector, .eraseRegion, .verify, .armTrial, .defineRegion, .clearRegion, .setAccess,
      .bindView, .lockRegion, .setBoot, .setPort, .resetMaster, .flushPort, .storeConfig].map RequestKind.code
    = [0x01, 0x02, 0x03, 0x04, 0x05, 0x06, 0x10, 0x11, 0x12, 0x13, 0x14, 0x15, 0x16, 0x17, 0x18, 0x19]
  ∧ ∀ (f : SubmitFrame) (r : Request),
    submitRecord f = some r ↔
      r.kind.code = f.kind ∧ r.tag = f.tag ∧ r.address = f.address ∧ r.count = f.count.toNat ∧ r.payload = f.payload
      ∧ f.count.toNat ≤ 256
      ∧ f.payloadLength.toNat
          = (match r.kind with
            | .read | .eraseSector | .eraseRegion | .verify | .storeConfig => 0
            | .program => f.count.toNat
            | .armTrial | .defineRegion => 5
            | .clearRegion | .lockRegion | .resetMaster | .flushPort => 1
            | .setAccess | .bindView | .setPort => 3
            | .setBoot => 8)
      ∧ (r.kind = .read ∨ r.kind = .program → 1 ≤ f.count.toNat)

/-- R44, R148, R149, R168, Table 11-2: a SUBMIT frame is acknowledged by the first of the four checks that fails, else
ACCEPTED; its bytes, and those its check byte covers, stand in the table's order with the most significant byte first. That
a frame which its payload length does not delimit is no event is the model's choice (log 21). -/
def Obligations.SubmitIsAcknowledgedByFourChecks : Prop :=
  (∀ f : SubmitFrame,
    submitBytes f
      = [0x52, f.kind, f.tag, BitVec.ofNat 8 (f.address.toNat / 65536), BitVec.ofNat 8 (f.address.toNat / 256),
          BitVec.ofNat 8 f.address.toNat, BitVec.ofNat 8 (f.count.toNat / 256), BitVec.ofNat 8 f.count.toNat,
          BitVec.ofNat 8 (f.payloadLength.toNat / 256), BitVec.ofNat 8 f.payloadLength.toNat] ++ f.payload
    ∧ submitFrame f = submitBytes f ++ (if f.payloadLength.toNat ≤ 256 then [f.check] else []))
  ∧ (∀ (p : Port) (f : SubmitFrame) (n : Nat) (s : State), f.delimited = true → s.inFrame p (submitFrame f) →
    (256 < f.payloadLength.toNat →
      exec (.submit p f n) s = .next (s.framed p (submitFrame f) [0xA3] .nothing n))
    ∧ (f.payloadLength.toNat ≤ 256 → submitRecord f = none →
      exec (.submit p f n) s = .next (s.framed p (submitFrame f) [0xA3] .nothing n))
    ∧ ∀ r, f.payloadLength.toNat ≤ 256 → submitRecord f = some r →
      ((s.port p).settings.checkRequired = true ∧ f.check ≠ crc8 (submitBytes f) →
        exec (.submit p f n) s = .next (s.framed p (submitFrame f) [0xA2] .nothing n))
      ∧ ((s.port p).settings.checkRequired = false ∨ f.check = crc8 (submitBytes f) →
        ((r.kind = .program ∨ r.kind = .eraseSector ∨ r.kind = .eraseRegion) ∧ (s.port p).latch = false →
          exec (.submit p f n) s = .next (s.framed p (submitFrame f) [0xA4] .nothing n))
        ∧ ((r.kind ≠ .program ∧ r.kind ≠ .eraseSector ∧ r.kind ≠ .eraseRegion) ∨ (s.port p).latch = true →
          (8 ≤ (s.port p).queue.length + (if (s.port p).current = none then 0 else 1)
              + (s.port p).completions.length →
            exec (.submit p f n) s = .next (s.framed p (submitFrame f) [0xA1] .nothing n))
          ∧ ((s.port p).queue.length + (if (s.port p).current = none then 0 else 1)
              + (s.port p).completions.length < 8 →
            exec (.submit p f n) s = .next (s.framed p (submitFrame f) [0xA0] (.accept r) n)))))
  ∧ ∀ (p : Port) (f : SubmitFrame) (n : Nat) (s : State), f.delimited = false → exec (.submit p f n) s = .next s

/-- R55, R156, R157, R170, R171, R172: FETCH, READ_STATUS and READ_PEER_STATUS take their frames and answer: the head
completion record or the empty one, the port's own snapshot, the target's snapshot or REFUSED; with the status codes of
Table 11-6 and the seventeen bytes of Table 11-5. -/
def Obligations.FetchAndStatusAnswers : Prop :=
  (∀ (p : Port) (n : Nat) (s : State),
    (s.inFrame p [0x53] →
      ((s.port p).completions = [] →
        exec (.fetch p n) s = .next (s.framed p [0x53] [0, 0, 0, 0, 0] (.fetched none) n))
      ∧ ∀ c rest, (s.port p).completions = c :: rest →
        exec (.fetch p n) s
          = .next (s.framed p [0x53]
              (c.tag :: c.kind.code :: c.status.code :: (if c.wrapped = true then 0x01 else 0x00)
                :: BitVec.ofNat 8 c.data.length :: c.data) (.fetched (some (5 + c.data.length))) n))
    ∧ (s.inFrame p [0x54] →
        exec (.readStatus p n) s = .next (s.framed p [0x54] (s.snapshotBytes p) .nothing n))
    ∧ ∀ target : Byte, s.inFrame p [0x55, target] →
      (∀ t : Port, p = s.admin → target.toNat = t.val →
        exec (.readPeerStatus p target n) s
          = .next (s.framed p [0x55, target] (0xA5 :: s.snapshotBytes t) .nothing n))
      ∧ (p ≠ s.admin ∨ 4 ≤ target.toNat →
        exec (.readPeerStatus p target n) s = .next (s.framed p [0x55, target] [0xA6] .nothing n)))
  ∧ [Status.done, .denied, .writeProtected, .range, .notAdmin, .expired, .disturbed, .mismatch, .conflict].map
        Status.code
      = [0x00, 0x01, 0x02, 0x03, 0x04, 0x05, 0x06, 0x07, 0x08]
  ∧ [RequestKind.read, .program, .eraseSector, .eraseRegion, .verify, .armTrial, .defineRegion, .clearRegion,
        .setAccess, .bindView, .lockRegion, .setBoot, .setPort, .resetMaster, .flushPort, .storeConfig].map
        RequestKind.code
      = [0x01, 0x02, 0x03, 0x04, 0x05, 0x06, 0x10, 0x11, 0x12, 0x13, 0x14, 0x15, 0x16, 0x17, 0x18, 0x19]
  ∧ ∀ (p : Port) (s : State),
    s.snapshotBytes p
      = [BitVec.ofNat 8 p.val, if p = s.admin then 1 else 0, BitVec.ofNat 8 (s.port p).queue.length,
          if (s.port p).current = none then 0 else 1, BitVec.ofNat 8 (s.port p).completions.length,
          BitVec.ofNat 8 (8 - ((s.port p).queue.length + (if (s.port p).current = none then 0 else 1)
            + (s.port p).completions.length)),
          if (s.port p).latch = true then 1 else 0,
          match (s.port p).bootState with
          | .off => 0x00
          | .held => 0x01
          | .trial => 0x02
          | .unconfirmed => 0x03
          | .running => 0x04
          | .failed => 0x05,
          match (s.port p).boot.active with
          | .a => 0x00
          | .b => 0x01,
          match (s.port p).trial with
          | some .a => 0x00
          | some .b => 0x01
          | none => 0xFF,
          BitVec.ofNat 8 (s.port p).attempts, BitVec.ofNat 8 (s.port p).boot.attemptLimit,
          if (s.port p).expected = .x96 then 0x96 else 0x69, (s.port p).eventStatus, (s.port p).enables,
          (s.port p).causes, if s.writer.snapshot = none then 0 else 1]

/-- R149, R150, R118, R121: the acknowledgement of every checked immediate request, and the effect that its deselect will
take. -/
def Obligations.CheckedFramesAreAcknowledged : Prop :=
  ∀ (p : Port) (check b : Byte) (n : Nat) (s : State),
    ∀ (c : Instr) (bytes : List Byte) (allowed : Bool) (effect : Effect),
      (c, bytes, allowed, effect) ∈
        ([(.writeEnable p check n, [0x61], true, .setLatch),
          (.writeDisable p check n, [0x62], true, .clearLatch),
          (.clearEvents p b check n, [0x63, b], true, .clearEvents b),
          (.setEventEnables p b check n, [0x64, b], true, .setEnables b),
          (.clearCauses p b check n, [0x65, b], true, .clearCauses b),
          (.confirmBoot p check n, [0x71],
            decide ((s.port p).bootState = .trial ∨ (s.port p).bootState = .unconfirmed), .confirmBoot),
          (.service p b check n, [0x72, b], decide ((s.port p).watchdog ≠ .stopped), .service b),
          (.restart p check n, [0x73], true, .restart)]
          : List (Instr × List Byte × Bool × Effect)) →
      s.inFrame p (bytes ++ [check]) →
      ((s.port p).settings.checkRequired = true ∧ check ≠ crc8 bytes →
        exec c s = .next (s.framed p (bytes ++ [check]) [0xA2] .nothing n))
      ∧ ((s.port p).settings.checkRequired = false ∨ check = crc8 bytes →
        (allowed = true → exec c s = .next (s.framed p (bytes ++ [check]) [0xA5] effect n))
        ∧ (allowed = false → exec c s = .next (s.framed p (bytes ++ [check]) [0xA6] .nothing n)))

/-- R145, R147, R153, R155: bytes of a frame command in a transaction that is ignored, cut or decided are only clocked:
filler where it is ignored, cut or silenced, what is left of the answer and then filler where it is decided. With no
transaction in progress (log 2), or beside an unfinished frame of other bytes (log 21), the command is no event, which is the
model's choice; the record of bytes sent is the model's own (log 7). -/
def Obligations.BytesOutsideAFrameAreOnlyClocked : Prop :=
  (∀ (c : Instr) (p : Port) (frame : List Byte) (n : Nat) (s : State), frameOf c = some (p, frame, n) → c.wf = true →
    ((s.port p).transaction = none → exec c s = .next s)
    ∧ ∀ t, (s.port p).transaction = some t →
      (t.ignored = true ∨ t.cut = true ∨ t.decision ≠ none → exec c s = .next (s.clockOut p (frame.length + n)))
      ∧ (t.ignored = false → t.cut = false → t.decision = none → ¬ t.frame <+: frame → exec c s = .next s))
  ∧ ∀ (p : Port) (n : Nat) (s : State),
    ((s.port p).transaction = none → s.clockOut p n = s)
    ∧ ∀ t, (s.port p).transaction = some t →
      (t.ignored = true ∨ t.cut = true ∨ t.silenced = true ∨ t.decision = none →
        s.clockOut p n
          = s.setPort p { s.port p with
              transaction := some { t with taken := t.taken + n }
              sdo := (s.port p).sdo ++ List.replicate n 0xFF })
      ∧ ∀ d, t.ignored = false → t.cut = false → t.silenced = false → t.decision = some d →
        (s.port p).stream = none →
        s.clockOut p n
          = s.setPort p { s.port p with
              transaction := some { t with taken := t.taken + n }
              sdo := (s.port p).sdo ++ answerBytes (d.answer.drop (t.taken - t.frame.length)) n }

/-! ## What follows inside an event, and events that are not due -/

/-- R9, R12, R14, R48, R67, R68, R129, R134, R137: the end of an event leaves nothing due and STLED showing its condition.
Nothing is due exactly when no port without a current request has a queued one, the writer is not IDLE beside a waiting
STORE_CONFIG or commit-pending, and at neither bank a write may start, an entry may be granted, a suspend is asked for or an
erase may resume. A step due is the effect of PRESENTATION, CONFIGURATION_WRITE_BEGIN, WRITE_START, a grant, or RESUME, or
the suspend that a waiting read asks for. That these steps are taken inside the event and their order are the model's (log 4,
log 27, log 32, log 33, log 35), and so is the suspend asked for as a condition on the state (log 5). -/
def Obligations.FinishTakesEverythingDue : Prop :=
  (∀ s : State, s.finish.nothingDue ∧ s.finish.quiet = true ∧ s.finish.ledShown)
  ∧ (∀ s : State, s.quiet = true ↔ s.nothingDue)
  ∧ (∀ s : State, s.internalStep = none → s.finish = s.refreshLed)
  ∧ ∀ s t : State, s.internalStep = some t →
    s.finish = t.finish
    ∧ ((∃ p : Port, exec (.presentation p) s = .next t.finish) ∨ exec .configurationWriteBegin s = .next t.finish
      ∨ (∃ b : BankId, exec (.writeStart b) s = .next t.finish ∨ exec (.readGrant b) s = .next t.finish
          ∨ exec (.writeGrant b) s = .next t.finish ∨ exec (.resume b) s = .next t.finish)
      ∨ ∃ (b : BankId) (op : WriteOperation) (p : Port) (c : Candidate),
          (s.bank b).writeSlot = .busy .erasing op ∧ (s.bank b).suspendCount < 8
          ∧ (s.bank b).candidate p = some c ∧ c.target.isRead = true
          ∧ t = s.setBank b { s.bank b with writeSlot := .busy .suspending op })

/-- Log 2 (the model's choice): a command whose event is not due has no effect. -/
def Obligations.EventsNotDueHaveNoEffect : Prop :=
  ∀ (p : Port) (b : BankId) (s : State),
    ((s.port p).current ≠ none ∨ (s.port p).queue = [] → exec (.presentation p) s = .next s)
    ∧ (∀ i, (s.port p).queue[i]? = none → exec (.deadlineExpiry p (.queued i)) s = .next s)
    ∧ (∀ i q, (s.port p).queue[i]? = some q → q.timer = .stopped → exec (.deadlineExpiry p (.queued i)) s = .next s)
    ∧ (((s.port p).current = none ∨ (∃ cur, (s.port p).current = some cur ∧ cur.timer = .stopped)
        ∨ ∀ (k : BankId) (c : Candidate), (s.bank k).candidate p = some c → c.granted = true) →
        exec (.deadlineExpiry p .current) s = .next s)
    ∧ ((∀ q c, (s.bank b).nextGrant = some (q, c) → c.target.isRead = false) → exec (.readGrant b) s = .next s)
    ∧ ((∀ q c, (s.bank b).nextGrant = some (q, c) → c.target.isRead = true) → exec (.writeGrant b) s = .next s)
    ∧ ((∀ op, (s.bank b).writeSlot ≠ .busy .starting op) ∨ (s.bank b).readSlot ≠ none ∨ (s.bank b).openStreams ≠ 0 →
        exec (.writeStart b) s = .next s)
    ∧ ((∀ op, (s.bank b).writeSlot ≠ .busy .suspending op) → exec (.suspendComplete b) s = .next s)
    ∧ ((∀ op, (s.bank b).writeSlot ≠ .busy .suspended op) ∨ (s.bank b).readSlot ≠ none ∨ (s.bank b).openStreams ≠ 0
        ∨ (∃ q c, (s.bank b).candidate q = some c ∧ c.target.isRead = true) → exec (.resume b) s = .next s)
    ∧ ((s.bank b).readSlot = none → exec (.readComplete b) s = .next s)
    ∧ ((∀ op, (s.bank b).writeSlot ≠ .busy .programming op) → exec (.programComplete b) s = .next s)
    ∧ ((∀ op, (s.bank b).writeSlot ≠ .busy .erasing op ∧ (s.bank b).writeSlot ≠ .busy .suspending op) →
        exec (.sectorEraseComplete b) s = .next s)
    ∧ ((s.port p).pulse = .stopped → exec (.pulseRelease p) s = .next s)
    ∧ ((s.port p).bootTimer = .stopped → exec (.bootTimerExpiry p) s = .next s)
    ∧ ((s.port p).watchdog = .stopped →
        exec (.watchdogHalf p) s = .next s ∧ exec (.watchdogExpiry p) s = .next s)
    ∧ (s.writer.snapshot ≠ none ∨ s.writer.waiting = false ∧ s.writer.commitPending = false →
        exec .configurationWriteBegin s = .next s)
    ∧ (s.writer.snapshot = none → exec .configurationWriteComplete s = .next s)
    ∧ (s.startUp = .unpowered → exec .deviceReset s = .next s)

/-! ## The deselect and the select-hold limit -/

/-- R55, R56, R57, R150, R151, R160, R162, R165: the deselect of a decided transaction takes the effect decided at the end
of its frame; that of a FETCH removes the head record where every byte of it has been clocked out and no flush has
overtaken it. -/
def Obligations.DeselectTakesTheDecidedEffect : Prop :=
  ∀ (p : Port) (bytes : List Byte) (n : Nat) (s : State) (t : Transaction) (d : Decision),
    (s.port p).transaction = some t → t.ignored = false → t.cut = false → t.decision = some d →
    (s.port p).stream = none → bytes.length = n →
    (d.effect = .nothing ∨ d.effect = .fetched none ∨ d.effect = .stream →
      exec (.deselect p bytes) s = .next (s.setPort p ((s.port p).deselected t n)).finish)
    ∧ (d.effect = .setLatch →
      exec (.deselect p bytes) s = .next (s.setPort p { (s.port p).deselected t n with latch := true }).finish)
    ∧ (d.effect = .clearLatch →
      exec (.deselect p bytes) s = .next (s.setPort p { (s.port p).deselected t n with latch := false }).finish)
    ∧ (∀ set, d.effect = .clearEvents set →
      exec (.deselect p bytes) s
        = .next (s.setPort p { (s.port p).deselected t n with sticky := (s.port p).sticky &&& ~~~set }).finish)
    ∧ (∀ set, d.effect = .setEnables set →
      exec (.deselect p bytes) s = .next (s.setPort p { (s.port p).deselected t n with enables := set }).finish)
    ∧ (∀ set, d.effect = .clearCauses set →
      exec (.deselect p bytes) s
        = .next (s.setPort p { (s.port p).deselected t n with causes := (s.port p).causes &&& ~~~set }).finish)
    ∧ ∀ m, d.effect = .fetched (some m) →
      (t.silenced = false → m ≤ t.taken + n - t.frame.length →
        exec (.deselect p bytes) s
          = .next (s.setPort p { (s.port p).deselected t n with
              completions := (s.port p).completions.drop 1 }).finish)
      ∧ (t.silenced = true ∨ t.taken + n - t.frame.length < m →
        exec (.deselect p bytes) s = .next (s.setPort p ((s.port p).deselected t n)).finish)

/-- R44, R48, R51, R57: the deselect of an ACCEPTED SUBMIT puts the request at the tail of the queue with its timer, clears
the latch for a write kind, and is followed by the presentation where the port has no current request. -/
def Obligations.DeselectAcceptsTheRequest : Prop :=
  ∀ (p : Port) (bytes : List Byte) (n : Nat) (s : State) (t : Transaction) (d : Decision) (r : Request),
    (s.port p).transaction = some t → t.ignored = false → t.cut = false → t.decision = some d →
    (s.port p).stream = none → bytes.length = n → d.effect = .accept r →
    ∃ u : State,
      u = s.setPort p { (s.port p).deselected t n with
        queue := (s.port p).queue ++
          [⟨r, match (s.port p).settings.deadline with
            | .off => .stopped
            | .ms10 => .running 10
            | .ms100 => .running 100
            | .s1 => .running 1000, false⟩]
        latch := if r.kind = .program ∨ r.kind = .eraseSector ∨ r.kind = .eraseRegion then false
          else (s.port p).latch }
      ∧ exec (.deselect p bytes) s = .next u.finish
      ∧ (s.quiet = true → (s.port p).current = none → u.internalStep = some (u.present p))

/-- R118, R120, R121, R123, R136, Table 7-1: the deselect of a CONFIRM_BOOT, SERVICE or RESTART acts on the boot record as
it then stands; the watchdog starts for its period in milliseconds. A commit request sets its mark, and beside an IDLE writer
the write begins at the end of the same event, which is the model's form of R136 (log 27). -/
def Obligations.DeselectOfBootRequests : Prop :=
  [WatchdogPeriod.off, .ms100, .ms250, .ms500, .s1, .s2, .s4, .s8].map WatchdogPeriod.start
    = [.stopped, .running 100 false, .running 250 false, .running 500 false, .running 1000 false, .running 2000 false,
        .running 4000 false, .running 8000 false]
  ∧ ∀ (p : Port) (bytes : List Byte) (n : Nat) (s : State) (t : Transaction) (d : Decision),
    (s.port p).transaction = some t → t.ignored = false → t.cut = false → t.decision = some d →
    (s.port p).stream = none → bytes.length = n →
    (d.effect = .confirmBoot →
      ((s.port p).bootState = .unconfirmed →
        exec (.deselect p bytes) s
          = .next (s.setPort p { (s.port p).deselected t n with
              attempts := 0, bootTimer := .stopped, bootState := .running, expected := .x96
              watchdog := (s.port p).boot.watchdogPeriod.start }).finish)
      ∧ (∀ slot, (s.port p).bootState = .trial → (s.port p).trial = some slot →
        exec (.deselect p bytes) s
          = .next { (s.setPort p { (s.port p).deselected t n with
                attempts := 0, bootTimer := .stopped, bootState := .running, expected := .x96
                watchdog := (s.port p).boot.watchdogPeriod.start
                trial := none
                boot := { (s.port p).boot with active := slot }
                windows := ((s.port p).windows.set 0 (some ((s.port p).boot.slot slot))).set 1
                  (some ((s.port p).boot.slot (s.port p).boot.active)) }) with
              writer := { s.writer with commitPending := true } }.finish)
      ∧ ((s.port p).bootState ≠ .unconfirmed → (s.port p).bootState ≠ .trial →
        exec (.deselect p bytes) s = .next (s.setPort p ((s.port p).deselected t n)).finish))
    ∧ (∀ code, d.effect = .service code →
      (∀ ms half, (s.port p).watchdog = .running ms half →
        ((s.port p).expected = .x96 ∧ code = 0x96 →
          exec (.deselect p bytes) s
            = .next (s.setPort p { (s.port p).deselected t n with
                watchdog := .running ms false, expected := .x69 }).finish)
        ∧ ((s.port p).expected = .x69 ∧ code = 0x69 →
          exec (.deselect p bytes) s
            = .next (s.setPort p { (s.port p).deselected t n with
                watchdog := .running ms false, expected := .x96 }).finish)
        ∧ (code ≠ (if (s.port p).expected = .x96 then 0x96 else 0x69) →
          exec (.deselect p bytes) s
            = .next ((s.setPort p ((s.port p).deselected t n)).pulseStart p (some .badService)).finish))
      ∧ ((s.port p).watchdog = .stopped →
        exec (.deselect p bytes) s = .next (s.setPort p ((s.port p).deselected t n)).finish))
    ∧ (d.effect = .restart →
      exec (.deselect p bytes) s
        = .next ((s.setPort p ((s.port p).deselected t n)).pulseStart p (some .selfRestart)).finish)

/-- R145, R151, R152, R153, R154, R155: the deselect of an ignored or cut transaction has no effect, and one whose frame the
bytes clocked leave unfinished sets FRAME_ABORT; it clears the transaction. That with no transaction in progress it changes
the select line alone (log 2, log 19), that the bytes before it stand in the command (log 6), and that bytes which would
complete the frame are no part of this event (log 21), are the model's choice. -/
def Obligations.DeselectOfIgnoredCutOrEarly : Prop :=
  ∀ (p : Port) (bytes : List Byte) (s : State),
    ((s.port p).transaction = none →
      exec (.deselect p bytes) s = .next (s.setPort p { s.port p with selected := false }))
    ∧ ∀ t, (s.port p).transaction = some t →
      (t.ignored = true ∨ t.cut = true →
        exec (.deselect p bytes) s
          = .next (s.setPort p { s.port p with
              selected := false
              transaction := none
              sdo := (s.port p).sdo ++ List.replicate bytes.length 0xFF }).finish)
      ∧ (t.ignored = false → t.cut = false → t.decision = none →
        (frameUnfinished (t.frame ++ bytes) = true →
          exec (.deselect p bytes) s
            = .next (s.setPort p { s.port p with
                selected := false
                transaction := none
                sdo := (s.port p).sdo ++ List.replicate bytes.length 0xFF
                sticky := (s.port p).sticky ||| 0x02 }).finish)
        ∧ (frameUnfinished (t.frame ++ bytes) = false → exec (.deselect p bytes) s = .next s))

/-- R89, R92, R93: the deselect and the select-hold limit send the stream's last bytes and close it; its bank's
open-stream count falls by 1. The limit cuts the transaction and sets FRAME_ABORT. -/
def Obligations.StreamClosesAtDeselectAndHoldLimit : Prop :=
  ∀ (p : Port) (n k : Nat) (s : State) (t : Transaction) (d : Decision) (st : Stream) (head bytes : List Byte),
    (s.port p).transaction = some t → t.ignored = false → t.cut = false → t.silenced = false →
    t.decision = some d → d.effect = .stream → (s.port p).stream = some st →
    bytes.length = n → head = (d.answer.drop (t.taken - t.frame.length)).take n → k = n - head.length →
    exec (.deselect p bytes) s
      = .next { ((s.setPort p { s.port p with
            selected := false
            transaction := none
            stream := none
            sdo := (s.port p).sdo ++ (head ++ (s.sample (st.nextAddresses k) s.freeCount).1) }).setBank st.bank
          { s.bank st.bank with openStreams := (s.bank st.bank).openStreams - 1 }) with
          freeCount := (s.sample (st.nextAddresses k) s.freeCount).2 }.finish
    ∧ ∀ ms, t.holdTimer = .running ms →
      exec (.selectHoldLimit p bytes) s
        = .next { ((s.setPort p { s.port p with
              transaction := some { t with taken := t.taken + n, cut := true, holdTimer := .stopped }
              stream := none
              sticky := (s.port p).sticky ||| 0x02
              sdo := (s.port p).sdo ++ (head ++ (s.sample (st.nextAddresses k) s.freeCount).1) }).setBank st.bank
            { s.bank st.bank with openStreams := (s.bank st.bank).openStreams - 1 }) with
            freeCount := (s.sample (st.nextAddresses k) s.freeCount).2 }.finish

/-- R145, R153, R155: the select-hold limit cuts a timed transaction, its frame complete or not, and sets FRAME_ABORT; it
does nothing to one that is not timed (of a cut one, log 24). That with no transaction in progress there is no limit (log 2),
and that bytes which would complete a frame are no part of this event (log 21), are the model's choice. -/
def Obligations.SelectHoldLimitCutsTheTransaction : Prop :=
  ∀ (p : Port) (bytes : List Byte) (s : State),
    ((s.port p).transaction = none → exec (.selectHoldLimit p bytes) s = .next s)
    ∧ ∀ t, (s.port p).transaction = some t →
      (∀ ms, t.ignored = false → t.cut = false → t.holdTimer = .running ms → (s.port p).stream = none →
        (t.decision ≠ none →
          exec (.selectHoldLimit p bytes) s
            = .next (s.setPort p { s.port p with
                transaction := some { t with taken := t.taken + bytes.length, cut := true, holdTimer := .stopped }
                sdo := (s.port p).sdo ++ t.lastBytes bytes.length
                sticky := (s.port p).sticky ||| 0x02 }).finish)
        ∧ (t.decision = none → frameUnfinished (t.frame ++ bytes) = true →
          exec (.selectHoldLimit p bytes) s
            = .next (s.setPort p { s.port p with
                transaction := some { t with
                  kind := kindOfFrame (t.frame ++ bytes), frame := t.frame ++ bytes
                  taken := t.frame.length + bytes.length, cut := true, holdTimer := .stopped }
                sdo := (s.port p).sdo ++ List.replicate bytes.length 0xFF
                sticky := (s.port p).sticky ||| 0x02 }).finish)
        ∧ (t.decision = none → frameUnfinished (t.frame ++ bytes) = false →
          exec (.selectHoldLimit p bytes) s = .next s))
      ∧ (t.ignored = true ∨ t.cut = true → t.holdTimer = .stopped →
        exec (.selectHoldLimit p bytes) s
          = .next (s.setPort p { s.port p with
              transaction := some { t with taken := t.taken + bytes.length }
              sdo := (s.port p).sdo ++ List.replicate bytes.length 0xFF }))

/-! ## The flush, the pulse and FAILED -/

/-- R16, R17, R56, R59, R66, R92, R138: what a flush of a port takes from its Request Queue, its Port Interface, the banks
and the writer, and that it changes nothing else. The withdrawal at the administrator port is log 17. -/
def Obligations.FlushEmptiesThePort : Prop :=
  ∀ (s : State) (p : Port), ∃ t : State, s.flush p = t
    ∧ t = { s with banks := t.banks, ports := t.ports, writer := t.writer }
    ∧ (∀ q : Port, q ≠ p → t.port q = s.port q)
    ∧ (∃ tr : Option Transaction,
        t.port p = { s.port p with
          queue := [], current := none, completions := [], latch := false, stream := none, transaction := tr }
        ∧ ((s.port p).transaction = none → tr = none)
        ∧ ∀ u, (s.port p).transaction = some u →
          ((∃ d, u.decision = some d ∧ (d.effect = .stream ∨ ∃ m, d.effect = .fetched m)) →
            tr = some { u with silenced := true })
          ∧ ((∀ d, u.decision = some d → d.effect ≠ .stream ∧ ∀ m, d.effect ≠ .fetched m) → tr = some u))
    ∧ t.writer = (if p = s.admin then { s.writer with waiting := false, carried := false } else s.writer)
    ∧ ∀ b : BankId,
      (t.bank b).candidate p = none ∧ (∀ q : Port, q ≠ p → (t.bank b).candidate q = (s.bank b).candidate q)
      ∧ (t.bank b).pointer = (s.bank b).pointer ∧ (t.bank b).suspendCount = (s.bank b).suspendCount
      ∧ (t.bank b).digest = (s.bank b).digest
      ∧ ((s.bank b).readSlot = none → (t.bank b).readSlot = none)
      ∧ (∀ op, (s.bank b).readSlot = some op →
          (t.bank b).readSlot = some { op with owner := if op.owner = .port p then .orphan else op.owner })
      ∧ ((s.bank b).writeSlot = .none → (t.bank b).writeSlot = .none)
      ∧ (∀ st op, (s.bank b).writeSlot = .busy st op →
          (t.bank b).writeSlot = .busy st { op with owner := if op.owner = .port p then .orphan else op.owner })
      ∧ (t.bank b).openStreams
          = (s.bank b).openStreams - (if ∃ st, (s.port p).stream = some st ∧ st.bank = b then 1 else 0)

/-- R110, R111, R113, R117, R154, R155, R163: a pulse start and an entry into FAILED flush the port, cut its live
transaction with FRAME_ABORT, clear its enables, add the cause, stop its timers and hold its master; an entry into FAILED
sets PEER_FAILED at the administrator port. -/
def Obligations.PulseAndFailureHoldThePort : Prop :=
  (∀ (s : State) (p : Port) (cause : Option Cause), ∃ t f : State, ∃ tr : Option Transaction, ∃ events : Byte,
    s.pulseStart p cause = t ∧ s.flush p = f
    ∧ ((f.port p).hasLive = false → tr = (f.port p).transaction ∧ events = (f.port p).sticky)
    ∧ (∀ u, (f.port p).transaction = some u → u.ignored = false → u.cut = false →
        tr = some { u with cut := true, holdTimer := .stopped } ∧ events = (f.port p).sticky ||| 0x02)
    ∧ t = f.setPort p { f.port p with
        transaction := tr
        sticky := events
        enables := 0
        causes := (f.port p).causes ||| (match cause with
          | none => 0
          | some .powerOn => 0x01
          | some .deviceReset => 0x02
          | some .bootTimeout => 0x04
          | some .trialTimeout => 0x08
          | some .watchdog => 0x10
          | some .badService => 0x20
          | some .selfRestart => 0x40
          | some .adminReset => 0x80)
        bootTimer := .stopped
        watchdog := .stopped
        pulse := .running 10
        bootState := if (f.port p).boot.enabled = true then .held else (f.port p).bootState }
    ∧ t.mrstAsserted p = true ∧ t.attnAsserted p = false ∧ t.ignoresTransactions p = true)
  ∧ ∀ (s : State) (p : Port), ∃ t f : State, ∃ tr : Option Transaction, ∃ events : Byte,
    s.enterFailed p = t ∧ s.flush p = f
    ∧ ((f.port p).hasLive = false → tr = (f.port p).transaction ∧ events = (f.port p).sticky)
    ∧ (∀ u, (f.port p).transaction = some u → u.ignored = false → u.cut = false →
        tr = some { u with cut := true, holdTimer := .stopped } ∧ events = (f.port p).sticky ||| 0x02)
    ∧ t = (f.setPort p { f.port p with
        transaction := tr
        sticky := events
        enables := 0
        causes := (f.port p).causes ||| 0x04
        bootTimer := .stopped
        watchdog := .stopped
        pulse := .stopped
        bootState := .failed }).modPort s.admin (fun x => { x with sticky := x.sticky ||| 0x80 })
    ∧ t.mrstAsserted p = true ∧ t.attnAsserted p = false ∧ t.ignoresTransactions p = true

/-! ## Presentation -/

/-- R42, R48: a request that carries an expiry mark completes EXPIRED at its presentation; one of an administrator-only
kind, or an ARM_TRIAL or SET_PORT for another port, completes NOT_ADMIN at a port other than the administrator port. -/
def Obligations.PresentationEndsMarkedAndForbidden : Prop :=
  ∀ (p : Port) (s : State) (q : Queued) (rest : List Queued), s.heads p q rest →
    (q.expired = true → exec (.presentation p) s = .next (s.answered p rest q.request .expired).finish)
    ∧ (q.expired = false → p ≠ s.admin →
      (q.request.kind ∈ [RequestKind.defineRegion, .clearRegion, .setAccess, .bindView, .lockRegion, .setBoot,
          .resetMaster, .flushPort, .storeConfig]
        ∨ (q.request.kind = .armTrial ∨ q.request.kind = .setPort) ∧ (q.request.payload.getD 0 0).toNat ≠ p.val) →
      exec (.presentation p) s = .next (s.answered p rest q.request .notAdmin).finish)

/-- R25 to R32, R48, R65, R97: an array request is checked at its presentation. The first check that fails completes it;
one that passes stays current and joins the candidate set of its bank with the range of its translation. -/
def Obligations.PresentationOfArrayRequests : Prop :=
  ∀ (p : Port) (s : State) (q : Queued) (rest : List Queued) (r : Request), s.heads p q rest → q.expired = false →
    q.request = r →
    (∀ need demand,
      r.kind = .read ∧ need = Level.read ∧ demand = (fun o size => decide (o + r.count ≤ size))
        ∨ r.kind = .program ∧ need = .write ∧ demand = (fun o size => decide (o < size))
        ∨ r.kind = .eraseSector ∧ need = .full ∧ demand = (fun o size => decide (o < size))
        ∨ r.kind = .eraseRegion ∧ need = .full ∧ demand = (fun _ _ => true)
        ∨ r.kind = .verify ∧ need = .read ∧ demand = (fun _ _ => true) →
      (∀ status, s.access p r.address need demand = .failed status →
        exec (.presentation p) s = .next (s.answered p rest r status).finish)
      ∧ ∀ n range offset (b : BankId), s.access p r.address need demand = .ok n range offset →
        b = (if range.first < 1024 then 0 else 1) →
        (r.kind = .read →
          exec (.presentation p) s
            = .next ((s.madeCurrent p rest ⟨r, q.timer, none, none⟩).setBank b ((s.bank b).setCandidate p
                (some ⟨.read (range.first * 4096 + offset) r.count, none, false⟩))).finish)
        ∧ (r.kind = .program → s.protectedSector ((range.first * 4096 + offset) / 4096) = false →
          exec (.presentation p) s
            = .next ((s.madeCurrent p rest ⟨r, q.timer, none, none⟩).setBank b ((s.bank b).setCandidate p
                (some ⟨.program ((range.first * 4096 + offset) - (range.first * 4096 + offset) % 256)
                  ((range.first * 4096 + offset) % 256) r.payload, none, false⟩))).finish)
        ∧ (r.kind = .eraseSector → s.protectedSector ((range.first * 4096 + offset) / 4096) = false →
          exec (.presentation p) s
            = .next ((s.madeCurrent p rest ⟨r, q.timer, none, none⟩).setBank b ((s.bank b).setCandidate p
                (some ⟨.sectorErase ((range.first * 4096 + offset) / 4096), none, false⟩))).finish)
        ∧ (r.kind = .eraseRegion → s.protectedRegion n = false →
          exec (.presentation p) s
            = .next ((s.madeCurrent p rest ⟨r, q.timer, some range, none⟩).setBank b ((s.bank b).setCandidate p
                (some ⟨.sectorErase range.first, some 0, false⟩))).finish)
        ∧ (r.kind = .verify →
          exec (.presentation p) s
            = .next ((s.madeCurrent p rest ⟨r, q.timer, none, some ⟨range, 0, 0xFFFFFFFF, false, none⟩⟩).setBank b
                ((s.bank b).setCandidate p (some ⟨.verifyChunk range.first, some 0, false⟩))).finish)
        ∧ ((r.kind = .program ∨ r.kind = .eraseSector)
              ∧ s.protectedSector ((range.first * 4096 + offset) / 4096) = true
            ∨ r.kind = .eraseRegion ∧ s.protectedRegion n = true →
          exec (.presentation p) s = .next (s.answered p rest r .writeProtected).finish))

/-- R27, R48, R97, R104: an ARM_TRIAL of the administrator port, or of a port for itself, becomes a read candidate over the
target's alternate slot region where the target is eligible, and completes CONFLICT otherwise. -/
def Obligations.PresentationOfArmTrial : Prop :=
  ∀ (p : Port) (s : State) (q : Queued) (rest : List Queued) (r : Request), s.heads p q rest → q.expired = false →
    q.request = r → r.kind = .armTrial →
    (p = s.admin → 4 ≤ (r.payload.getD 0 0).toNat →
      exec (.presentation p) s = .next (s.answered p rest r .conflict).finish)
    ∧ ∀ (t : Port) (eligible : Prop), (r.payload.getD 0 0).toNat = t.val → (p = s.admin ∨ t = p) →
      (eligible ↔ (s.port t).boot.enabled = true ∧ (s.port t).trial = none
        ∧ ((s.port t).bootState = .running ∨ (s.port t).bootState = .failed ∧ p = s.admin)) →
      (¬ eligible → exec (.presentation p) s = .next (s.answered p rest r .conflict).finish)
      ∧ ∀ (slot : Slot) (region : RegionId) (range : SectorRange) (digest : Word) (b : BankId), eligible →
        (slot = .a ∧ (s.port t).boot.active = .b ∧ region = (s.port t).boot.slotA
          ∨ slot = .b ∧ (s.port t).boot.active = .a ∧ region = (s.port t).boot.slotB) →
        (s.region region).range? = some range →
        digest.toNat = (r.payload.getD 1 0).toNat * 0x1000000 + (r.payload.getD 2 0).toNat * 0x10000
          + (r.payload.getD 3 0).toNat * 0x100 + (r.payload.getD 4 0).toNat →
        b = (if range.first < 1024 then 0 else 1) →
        exec (.presentation p) s
          = .next ((s.madeCurrent p rest
                ⟨r, q.timer, none, some ⟨range, 0, 0xFFFFFFFF, false, some ⟨t, slot, region, digest⟩⟩⟩).setBank b
              ((s.bank b).setCandidate p (some ⟨.verifyChunk range.first, some 0, false⟩))).finish

/-- R33, R34, R35: DEFINE_REGION and CLEAR_REGION are made exactly under their conditions, and refused with CONFLICT and no
change otherwise. -/
def Obligations.DefineAndClearRegion : Prop :=
  ∀ (p : Port) (s : State) (q : Queued) (rest : List Queued) (r : Request), s.heads p q rest → q.expired = false →
    q.request = r → p = s.admin →
    (r.kind = .defineRegion →
      (16 ≤ (r.payload.getD 0 0).toNat →
        exec (.presentation p) s = .next (s.answered p rest r .conflict).finish)
      ∧ ∀ (n : RegionId) (first count : Nat) (allowed : Prop), (r.payload.getD 0 0).toNat = n.val →
        first = (r.payload.getD 1 0).toNat * 256 + (r.payload.getD 2 0).toNat →
        count = (r.payload.getD 3 0).toNat * 256 + (r.payload.getD 4 0).toNat →
        (allowed ↔ s.region n = .unused ∧ 1 ≤ count ∧ count ≤ 1024 ∧ first + count ≤ 2048
          ∧ (first + count ≤ 1024 ∨ 1024 ≤ first)
          ∧ ∀ m range, (s.region m).range? = some range →
              range.first + range.count ≤ first ∨ first + count ≤ range.first) →
        (allowed → exec (.presentation p) s
          = .next ((s.setRegion n (.inUse false ⟨first, count⟩ #v[.none, .none, .none, .none])).answered p rest r
              .done).finish)
        ∧ (¬ allowed → exec (.presentation p) s = .next (s.answered p rest r .conflict).finish))
    ∧ (r.kind = .clearRegion →
      (16 ≤ (r.payload.getD 0 0).toNat →
        exec (.presentation p) s = .next (s.answered p rest r .conflict).finish)
      ∧ ∀ (n : RegionId) (allowed : Prop), (r.payload.getD 0 0).toNat = n.val →
        (allowed ↔ (∃ range levels, s.region n = .inUse false range levels ∧ ∀ t : Port, levels[t] = Level.none)
          ∧ (∀ (t : Port) (w : Fin 4), (s.port t).window w ≠ some n)
          ∧ ∀ t : Port, (s.port t).boot.enabled = true →
              (s.port t).boot.slotA ≠ n ∧ (s.port t).boot.slotB ≠ n) →
        (allowed → exec (.presentation p) s = .next ((s.setRegion n .unused).answered p rest r .done).finish)
        ∧ (¬ allowed → exec (.presentation p) s = .next (s.answered p rest r .conflict).finish))

/-- R33, R36, R37, R40: SET_ACCESS and BIND_VIEW, case by case, with the CONFIG_EDIT that a change raises at the port
named. -/
def Obligations.SetAccessAndBindView : Prop :=
  ∀ (p : Port) (s : State) (q : Queued) (rest : List Queued) (r : Request), s.heads p q rest → q.expired = false →
    q.request = r → p = s.admin →
    (r.kind = .setAccess →
      (16 ≤ (r.payload.getD 0 0).toNat ∨ 4 ≤ (r.payload.getD 1 0).toNat ∨ 4 ≤ (r.payload.getD 2 0).toNat →
        exec (.presentation p) s = .next (s.answered p rest r .conflict).finish)
      ∧ ∀ (n : RegionId) (t : Port) (new : Level), (r.payload.getD 0 0).toNat = n.val →
        (r.payload.getD 1 0).toNat = t.val →
        [Level.none, .read, .write, .full][(r.payload.getD 2 0).toNat]? = some new →
        (s.region n = .unused → exec (.presentation p) s = .next (s.answered p rest r .conflict).finish)
        ∧ ∀ locked range levels, s.region n = .inUse locked range levels →
          (levels[t] = new → exec (.presentation p) s = .next (s.answered p rest r .done).finish)
          ∧ (levels[t] ≠ new → levels[t] = .none ∨ new = .none →
            exec (.presentation p) s
              = .next (((s.setRegion n (.inUse locked range (levels.set t new))).modPort t fun x =>
                  { x with sticky := x.sticky ||| 0x04 }).answered p rest r .done).finish)
          ∧ (levels[t] ≠ new → levels[t] ≠ .none → new ≠ .none →
            exec (.presentation p) s = .next (s.answered p rest r .conflict).finish))
    ∧ (r.kind = .bindView →
      (4 ≤ (r.payload.getD 0 0).toNat ∨ 4 ≤ (r.payload.getD 1 0).toNat
          ∨ (16 ≤ (r.payload.getD 2 0).toNat ∧ (r.payload.getD 2 0).toNat ≠ 255) →
        exec (.presentation p) s = .next (s.answered p rest r .conflict).finish)
      ∧ ∀ (t : Port) (w : Fin 4) (target : Option RegionId), (r.payload.getD 0 0).toNat = t.val →
        (r.payload.getD 1 0).toNat = w.val →
        (target = none ∧ (r.payload.getD 2 0).toNat = 255
          ∨ ∃ n : RegionId, target = some n ∧ (r.payload.getD 2 0).toNat = n.val) →
        ((s.port t).boot.enabled = true ∧ w.val < 2 ∨ (∃ n, target = some n ∧ s.region n = .unused) →
          exec (.presentation p) s = .next (s.answered p rest r .conflict).finish)
        ∧ ((s.port t).boot.enabled = false ∨ 2 ≤ w.val → (∀ n, target = some n → s.region n ≠ .unused) →
          ((s.port t).window w = target → exec (.presentation p) s = .next (s.answered p rest r .done).finish)
          ∧ ((s.port t).window w ≠ target →
            exec (.presentation p) s
              = .next ((s.modPort t fun x =>
                  { x with windows := x.windows.set w target, sticky := x.sticky ||| 0x04 }).answered p rest r
                    .done).finish)))

/-- R33, R38, R40: LOCK_REGION locks an OPEN region and raises CONFIG_EDIT at every port with a right to it; a LOCKED one
stays as it is, and an UNUSED one is CONFLICT. -/
def Obligations.LockRegionLocks : Prop :=
  ∀ (p : Port) (s : State) (q : Queued) (rest : List Queued) (r : Request), s.heads p q rest → q.expired = false →
    q.request = r → p = s.admin → r.kind = .lockRegion →
    (16 ≤ (r.payload.getD 0 0).toNat →
      exec (.presentation p) s = .next (s.answered p rest r .conflict).finish)
    ∧ ∀ n : RegionId, (r.payload.getD 0 0).toNat = n.val →
      (s.region n = .unused → exec (.presentation p) s = .next (s.answered p rest r .conflict).finish)
      ∧ (∀ range levels, s.region n = .inUse true range levels →
        exec (.presentation p) s = .next (s.answered p rest r .done).finish)
      ∧ ∀ range levels, s.region n = .inUse false range levels →
        ∃ t : State, exec (.presentation p) s = .next (t.answered p rest r .done).finish
          ∧ t = { s.setRegion n (.inUse true range levels) with ports := t.ports }
          ∧ ∀ k : Port, t.port k
              = { s.port k with
                  sticky := if levels[k] = .none then (s.port k).sticky else (s.port k).sticky ||| 0x04 }

/-- R41, R125, R126, Table 7-1: SET_BOOT enables a disabled record onto two distinct regions in use, or disables a record;
what it refuses is CONFLICT and changes nothing; the watchdog starts for its period in milliseconds. -/
def Obligations.SetBootEnablesAndDisables : Prop :=
  [WatchdogPeriod.off, .ms100, .ms250, .ms500, .s1, .s2, .s4, .s8].map WatchdogPeriod.start
    = [.stopped, .running 100 false, .running 250 false, .running 500 false, .running 1000 false, .running 2000 false,
        .running 4000 false, .running 8000 false]
  ∧ ∀ (p : Port) (s : State) (q : Queued) (rest : List Queued) (r : Request), s.heads p q rest → q.expired = false →
    q.request = r → p = s.admin → r.kind = .setBoot →
    (4 ≤ (r.payload.getD 0 0).toNat ∨ r.storedBoot = none →
      exec (.presentation p) s = .next (s.answered p rest r .conflict).finish)
    ∧ (∀ b : StoredBoot, r.storedBoot = some b ↔
        (r.payload.getD 1 0).toNat = b.enabled.toNat ∧ (r.payload.getD 2 0).toNat = b.slotA.val
        ∧ (r.payload.getD 3 0).toNat = b.slotB.val
        ∧ [Slot.a, .b][(r.payload.getD 4 0).toNat]? = some b.active
        ∧ (r.payload.getD 5 0).toNat = b.attemptLimit ∧ 1 ≤ b.attemptLimit ∧ b.attemptLimit ≤ 7
        ∧ [250, 500, 1000, 2000, 4000, 8000, 16000, 32000][(r.payload.getD 6 0).toNat]? = some b.bootPeriod.ms
        ∧ [WatchdogPeriod.off, .ms100, .ms250, .ms500, .s1, .s2, .s4, .s8][(r.payload.getD 7 0).toNat]?
            = some b.watchdogPeriod)
    ∧ ∀ (t : Port) (b : StoredBoot), (r.payload.getD 0 0).toNat = t.val → r.storedBoot = some b →
      (b.enabled = true →
        ((s.port t).boot.enabled = true ∨ b.slotA = b.slotB ∨ s.region b.slotA = .unused
            ∨ s.region b.slotB = .unused →
          exec (.presentation p) s = .next (s.answered p rest r .conflict).finish)
        ∧ ((s.port t).boot.enabled = false → b.slotA ≠ b.slotB → s.region b.slotA ≠ .unused →
            s.region b.slotB ≠ .unused → ∀ x : PortState,
          x = { s.port t with
              boot := b
              trial := none
              attempts := 0
              windows := ((s.port t).windows.set 0 (some (if b.active = .a then b.slotA else b.slotB))).set 1
                (some (if b.active = .a then b.slotB else b.slotA))
              sticky := (s.port t).sticky ||| 0x04 } →
          ((s.port t).pulse = .stopped →
            exec (.presentation p) s
              = .next ((s.setPort t { x with
                    bootState := .running, bootTimer := .stopped, expected := .x96
                    watchdog := b.watchdogPeriod.start }).answered p rest r .done).finish)
          ∧ ((s.port t).pulse ≠ .stopped →
            exec (.presentation p) s
              = .next ((s.setPort t { x with bootState := .held }).answered p rest r .done).finish)))
      ∧ (b.enabled = false →
        exec (.presentation p) s
          = .next ((s.setPort t { s.port t with
                boot := b, trial := none, attempts := 0, bootState := .off, bootTimer := .stopped
                watchdog := .stopped }).answered p rest r .done).finish)

/-- R58, R61: SET_PORT sets both fields of its target's settings record; FLUSH_PORT flushes a port other than the
administrator port. -/
def Obligations.SetPortAndFlushPort : Prop :=
  ∀ (p : Port) (s : State) (q : Queued) (rest : List Queued) (r : Request), s.heads p q rest → q.expired = false →
    q.request = r →
    (r.kind = .setPort →
      ((p = s.admin ∧ 4 ≤ (r.payload.getD 0 0).toNat
          ∨ (p = s.admin ∨ (r.payload.getD 0 0).toNat = p.val)
            ∧ (2 ≤ (r.payload.getD 1 0).toNat ∨ 4 ≤ (r.payload.getD 2 0).toNat)) →
        exec (.presentation p) s = .next (s.answered p rest r .conflict).finish)
      ∧ ∀ (t : Port) (check : Bool) (deadline : Deadline), (r.payload.getD 0 0).toNat = t.val →
        (p = s.admin ∨ t = p) → (r.payload.getD 1 0).toNat = check.toNat →
        [Deadline.off, .ms10, .ms100, .s1][(r.payload.getD 2 0).toNat]? = some deadline →
        exec (.presentation p) s
          = .next ((s.modPort t fun x => { x with settings := ⟨check, deadline⟩ }).answered p rest r .done).finish)
    ∧ (r.kind = .flushPort → p = s.admin →
      (4 ≤ (r.payload.getD 0 0).toNat ∨ (r.payload.getD 0 0).toNat = p.val →
        exec (.presentation p) s = .next (s.answered p rest r .conflict).finish)
      ∧ ∀ t : Port, (r.payload.getD 0 0).toNat = t.val → t ≠ p →
        exec (.presentation p) s = .next ((s.flush t).answered p rest r .done).finish)

/-- R49, R124, R135: RESET_MASTER completes DONE as its pulse starts; a STORE_CONFIG stays current until the write that
carries it completes. Where the writer is IDLE its mark is set and the write begins at the end of the same event, which is the
model's form of R135 (log 27). -/
def Obligations.ResetMasterAndStoreConfig : Prop :=
  ∀ (p : Port) (s : State) (q : Queued) (rest : List Queued) (r : Request), s.heads p q rest → q.expired = false →
    q.request = r → p = s.admin →
    (r.kind = .resetMaster →
      (4 ≤ (r.payload.getD 0 0).toNat →
        exec (.presentation p) s = .next (s.answered p rest r .conflict).finish)
      ∧ ∀ t : Port, (r.payload.getD 0 0).toNat = t.val →
        ((s.port t).bootState ≠ .failed →
          exec (.presentation p) s
            = .next ((s.answered p rest r .done).pulseStart t (some .adminReset)).finish)
        ∧ ((s.port t).bootState = .failed →
          exec (.presentation p) s
            = .next (((s.answered p rest r .done).modPort t fun x =>
                { x with attempts := 0 }).pulseStart t (some .adminReset)).finish))
    ∧ (r.kind = .storeConfig → ∃ u : State,
      u = { s.madeCurrent p rest ⟨r, .stopped, none, none⟩ with writer := { s.writer with waiting := true } }
      ∧ exec (.presentation p) s = .next u.finish
      ∧ (s.writer.snapshot = none → (∀ k : Port, k ≠ p → (s.port k).presentable = false) →
          u.internalStep = some u.beginWrite))

/-- R51, R52, R66: a deadline that runs out marks a queued request, or takes a candidate that has not been granted out of
its bank's set and completes it EXPIRED. -/
def Obligations.DeadlineExpiryMarksOrExpires : Prop :=
  ∀ (p : Port) (s : State),
    (∀ i q ms, (s.port p).queue[i]? = some q → q.timer = .running ms →
      exec (.deadlineExpiry p (.queued i)) s
        = .next (s.setPort p { s.port p with
            queue := (s.port p).queue.set i ⟨q.request, .stopped, true⟩ }))
    ∧ ∀ cur ms b c, (s.port p).current = some cur → cur.timer = .running ms → (s.bank b).candidate p = some c →
      c.granted = false → (∀ k c', k ≠ b → (s.bank k).candidate p = some c' → c'.granted = true) →
      exec (.deadlineExpiry p .current) s
        = .next ((s.setBank b ((s.bank b).setCandidate p none)).finished p cur.request .expired false []).finish

/-! ## The banks -/

/-- R67, R68, Table 4-3: a search grants exactly the entry that may be granted and comes first from the pointer. -/
def Obligations.GrantSearchTakesTheFirstInOrder : Prop :=
  (∀ (k : Bank) (c : Candidate), k.mayGrant c = true ↔
    (c.target.isRead = true ∧ k.readSlot = none
        ∧ (k.writeSlot = .none ∨ ∃ op, k.writeSlot = .busy .suspended op)
      ∨ c.target.isRead = false ∧ k.writeSlot = .none))
  ∧ ∀ (k : Bank) (p : Port) (c : Candidate), k.nextGrant = some (p, c) ↔
      k.candidate p = some c ∧ k.mayGrant c = true
      ∧ ∀ q c', k.candidate q = some c' → k.mayGrant c' = true → (p - k.pointer).val ≤ (q - k.pointer).val

/-- R69, R70, R98, R100, R101: a granted read candidate leaves the set, the pointer moves past its port, its deadline
stops, and its operation enters the read slot; a verify that is marked, or whose range a suspended erase touches, ends
DISTURBED with no read. -/
def Obligations.ReadGrantFillsTheReadSlot : Prop :=
  ∀ (b : BankId) (s : State) (p : Port) (c : Candidate) (cur : Current) (k : Bank), (s.bank b).nextGrant = some (p, c) →
    (s.port p).current = some cur → k = { (s.bank b).setCandidate p none with pointer := p + 1 } →
    (∀ first length, c.target = .read first length →
      exec (.readGrant b) s
        = .next ((s.setPort p { s.port p with current := some { cur with timer := .stopped } }).setBank b
            { k with readSlot := some ⟨.port p, .read, first, length⟩ }).finish)
    ∧ ∀ sector v, c.target = .verifyChunk sector → cur.verify = some v →
      (v.disturbed = true
          ∨ (∃ owner taken chunk, (s.bank b).writeSlot = .busy .suspended ⟨owner, .sectorErase taken, chunk⟩
              ∧ v.range.first ≤ taken ∧ taken < v.range.first + v.range.count) →
        exec (.readGrant b) s
          = .next ((s.setBank b k).finished p cur.request .disturbed false []).finish)
      ∧ (v.disturbed = false →
          (∀ owner taken chunk, (s.bank b).writeSlot = .busy .suspended ⟨owner, .sectorErase taken, chunk⟩ →
            taken < v.range.first ∨ v.range.first + v.range.count ≤ taken) →
        exec (.readGrant b) s
          = .next ((s.setPort p { s.port p with current := some { cur with timer := .stopped } }).setBank b
              { k with
                readSlot := some ⟨.port p, .verifyChunk, sector * 4096, 4096⟩
                digest := some v.running }).finish)

/-- R32, R69, R71: a granted write candidate leaves the set, the pointer moves past its port and its deadline stops; it ends
PROTECTED with the slot NONE where its sector is protected, and enters STARTING otherwise. -/
def Obligations.WriteGrantTestsProtection : Prop :=
  ∀ (b : BankId) (s : State) (p : Port) (c : Candidate) (cur : Current) (k : Bank) (target : WriteTarget)
    (sector : Nat),
    (s.bank b).nextGrant = some (p, c) → (s.port p).current = some cur →
    k = { (s.bank b).setCandidate p none with pointer := p + 1 } →
    ((∃ page start data, c.target = .program page start data ∧ target = .program page start data
        ∧ sector = page / 4096)
      ∨ c.target = .sectorErase sector ∧ target = .sectorErase sector) →
    (s.protectedSector sector = true →
      exec (.writeGrant b) s
        = .next ((s.setBank b k).finished p cur.request .writeProtected false []).finish)
    ∧ (s.protectedSector sector = false →
      exec (.writeGrant b) s
        = .next ((s.setPort p { s.port p with current := some { cur with timer := .stopped } }).setBank b
            { k with writeSlot := .busy .starting ⟨.port p, target, c.chunk⟩ }).finish)

/-- R9, R13, R14, R100: a STARTING write begins once the read slot is IDLE and no stream is open, and marks the running
verifies at its bank whose range holds its sector; a suspension completes with the count one higher; a SUSPENDED erase
resumes, its count kept, once the read slot is IDLE, no stream is open and no read candidate waits. -/
def Obligations.WritesStartSuspendAndResume : Prop :=
  (∀ (b : BankId) (s : State) (op : WriteOperation) (sector : Nat) (k : Bank),
    (s.bank b).writeSlot = .busy .starting op → (s.bank b).readSlot = none → (s.bank b).openStreams = 0 →
    ((∃ page start data, op.target = .program page start data ∧ sector = page / 4096
        ∧ k = { s.bank b with writeSlot := .busy .programming op })
      ∨ op.target = .sectorErase sector
        ∧ k = { s.bank b with writeSlot := .busy .erasing op, suspendCount := 0 }) →
    ∃ t : State, exec (.writeStart b) s = .next t.finish ∧ t = { s.setBank b k with ports := t.ports }
      ∧ ∀ p : Port,
        (∀ c cur v, (s.bank b).candidate p = some c → c.granted = true → (s.port p).current = some cur →
          cur.verify = some v → v.range.first ≤ sector → sector < v.range.first + v.range.count →
          t.port p = { s.port p with current := some { cur with verify := some { v with disturbed := true } } })
        ∧ ((∀ c cur v, (s.bank b).candidate p = some c → (s.port p).current = some cur → cur.verify = some v →
            c.granted = false ∨ sector < v.range.first ∨ v.range.first + v.range.count ≤ sector) →
          t.port p = s.port p))
  ∧ ∀ (b : BankId) (s : State) (op : WriteOperation),
    ((s.bank b).writeSlot = .busy .suspending op →
      exec (.suspendComplete b) s
        = .next (s.setBank b { s.bank b with
            writeSlot := .busy .suspended op, suspendCount := (s.bank b).suspendCount + 1 }).finish)
    ∧ ((s.bank b).writeSlot = .busy .suspended op → (s.bank b).readSlot = none → (s.bank b).openStreams = 0 →
      (∀ p c, (s.bank b).candidate p = some c → c.target.isRead = false) →
      exec (.resume b) s = .next (s.setBank b { s.bank b with writeSlot := .busy .erasing op }).finish)

/-- R7, R17, R53, R76: a READ completes DONE with the bytes read; an orphan's bytes are discarded and the accumulator is
emptied. That the bytes are sampled at read complete, where R2 takes them in the read slot, is the model's (log 16), and so
are the free bytes among them (log 8). -/
def Obligations.ReadCompleteHandsOnTheBytes : Prop :=
  ∀ (b : BankId) (s : State) (first length : Nat),
    (∀ p cur, (s.bank b).readSlot = some ⟨.port p, .read, first, length⟩ → (s.port p).current = some cur →
      exec (.readComplete b) s
        = .next { (s.setBank b { s.bank b with readSlot := none }).finished p cur.request .done false
            (s.sample (List.range' first length) s.freeCount).1 with
            freeCount := (s.sample (List.range' first length) s.freeCount).2 }.finish)
    ∧ ∀ kind, (s.bank b).readSlot = some ⟨.orphan, kind, first, length⟩ →
      exec (.readComplete b) s
        = .next (s.setBank b { s.bank b with readSlot := none, digest := none }).finish

/-- R65, R96, R97, R98, R168: a verify chunk passes its bytes through the digest register; the request rejoins for the next
chunk with the register kept, or a VERIFY completes DONE with the inverted register as its four bytes, the most significant
first. That the chunk's bytes are sampled at read complete, where R2 takes them in the read slot, is the model's (log 16),
and so is that the return comes before the resume of a SUSPENDED erase (log 30). -/
def Obligations.VerifyChunkReturnsOrCompletes : Prop :=
  ∀ (b : BankId) (s : State) (p : Port) (first length : Nat) (cur : Current) (v : VerifyRecord) (loaded register : Word)
    (k : Bank),
    (s.bank b).readSlot = some ⟨.port p, .verifyChunk, first, length⟩ → (s.bank b).digest = some loaded →
    (s.port p).current = some cur → cur.verify = some v →
    register = crc32Bytes loaded (s.sample (List.range' first length) s.freeCount).1 →
    k = { s.bank b with readSlot := none, digest := none } →
    (v.next + 1 < v.range.count →
      exec (.readComplete b) s
        = .next { ((s.setPort p { s.port p with
              current := some { cur with verify := some { v with next := v.next + 1, running := register } } }).setBank b
            (k.setCandidate p
              (some ⟨.verifyChunk (v.range.first + (v.next + 1)), some (v.next + 1), true⟩))) with
            freeCount := (s.sample (List.range' first length) s.freeCount).2 }.finish)
    ∧ (v.range.count ≤ v.next + 1 → v.arm = none →
      exec (.readComplete b) s
        = .next { (s.setBank b k).finished p cur.request .done false
            [BitVec.ofNat 8 ((~~~register).toNat / 16777216), BitVec.ofNat 8 ((~~~register).toNat / 65536),
              BitVec.ofNat 8 ((~~~register).toNat / 256), BitVec.ofNat 8 (~~~register).toNat] with
            freeCount := (s.sample (List.range' first length) s.freeCount).2 }.finish)

/-- R96, R149: the steps of the digest and of the check byte, byte by byte and bit by bit, and the worked values of
Table 9-3. -/
def Obligations.ChecksumsFollowTheirSteps : Prop :=
  (∀ (r : Word) (bytes : List Byte) (b : Byte),
    crc32Bytes r [] = r ∧ crc32Bytes r (b :: bytes) = crc32Bytes (crc32Byte r b) bytes
    ∧ crc32Byte r b = Nat.iterate
        (fun x : Word => if x &&& 1 = 1 then (x >>> 1) ^^^ 0xEDB88320 else x >>> 1) 8 (r ^^^ b.setWidth 32))
  ∧ crc8 [] = 0
  ∧ (∀ (bytes : List Byte) (b : Byte),
    crc8 (bytes ++ [b]) = Nat.iterate
        (fun x : Byte => if x &&& 0x80 = 0x80 then (x <<< 1) ^^^ 0x07 else x <<< 1) 8 (crc8 bytes ^^^ b))
  ∧ crc8 [0x61] = 0x20 ∧ crc8 [0x62] = 0x29 ∧ crc8 [0x72, 0x96] = 0x63

/-- R106: the outcome of an ARM_TRIAL after its last chunk: DISTURBED, MISMATCH, CONFLICT, or the trial armed, by the first
of its four steps that applies. That the digest is formed from bytes sampled at read complete, where R2 takes them in the
read slot, is the model's (log 16). -/
def Obligations.ArmTrialOutcome : Prop :=
  ∀ (b : BankId) (s : State) (p : Port) (first length : Nat) (cur : Current) (v : VerifyRecord) (a : Arming)
    (loaded digest : Word) (k : Bank) (n : Nat) (writing stands : Prop),
    (s.bank b).readSlot = some ⟨.port p, .verifyChunk, first, length⟩ → (s.bank b).digest = some loaded →
    (s.port p).current = some cur → cur.verify = some v → v.arm = some a → v.range.count ≤ v.next + 1 →
    b = (if v.range.first < 1024 then 0 else 1) →
    digest = ~~~(crc32Bytes loaded (s.sample (List.range' first length) s.freeCount).1) →
    n = (s.sample (List.range' first length) s.freeCount).2 →
    k = { s.bank b with readSlot := none, digest := none } →
    (writing ↔ ∃ st op, (s.bank b).writeSlot = .busy st op ∧ v.range.first ≤ op.target.sector
      ∧ op.target.sector < v.range.first + v.range.count) →
    (stands ↔ (s.port a.target).boot.enabled = true ∧ (s.port a.target).trial = none
      ∧ (s.port a.target).boot.active.other = a.slot ∧ (s.port a.target).boot.slot a.slot = a.region
      ∧ (s.region a.region).range? = some v.range) →
    (writing → exec (.readComplete b) s
      = .next { (s.setBank b k).finished p cur.request .disturbed false [] with freeCount := n }.finish)
    ∧ (¬ writing → digest ≠ a.digest → exec (.readComplete b) s
      = .next { (s.setBank b k).finished p cur.request .mismatch false [] with freeCount := n }.finish)
    ∧ (¬ writing → digest = a.digest → ¬ stands → exec (.readComplete b) s
      = .next { (s.setBank b k).finished p cur.request .conflict false [] with freeCount := n }.finish)
    ∧ (¬ writing → digest = a.digest → stands → exec (.readComplete b) s
      = .next { ((s.modPort a.target fun x => { x with trial := some a.slot }).setBank b k).finished p cur.request
          .done false [] with freeCount := n }.finish)

/-- R3, R4, R10, R17, R77: a program ANDs its bytes into its page, wrapping within it, and changes no other byte; its owner's
request completes DONE with WRAPPED where it wrapped, and an orphan's outcome is discarded. -/
def Obligations.ProgramCompleteAndsThePage : Prop :=
  ∀ (b : BankId) (s : State) (owner : Owner) (page start : Nat) (data : List Byte) (chunk : Option Nat),
    s.arrayCanonical → (s.bank b).writeSlot = .busy .programming ⟨owner, .program page start data, chunk⟩ →
    data.length ≤ 256 →
    ∃ array : Memory,
      (∀ i d, data[i]? = some d →
        array.read (page + (start + i) % 256) = s.array.read (page + (start + i) % 256) &&& d)
      ∧ (∀ a, (∀ i, i < data.length → a ≠ page + (start + i) % 256) → array.read a = s.array.read a)
      ∧ (∀ p cur, owner = .port p → (s.port p).current = some cur →
          exec (.programComplete b) s
            = .next { (s.setBank b { s.bank b with writeSlot := .none }).finished p cur.request .done
                (decide (256 < start + data.length)) [] with array := array }.finish)
      ∧ (owner = .orphan →
          exec (.programComplete b) s
            = .next { s.setBank b { s.bank b with writeSlot := .none } with array := array }.finish)

/-- R5, R11, R17, R79: a sector erase sets its sector to 0xFF and changes no other byte; an ERASE_REGION rejoins for its next
sector, any other request completes DONE, and an orphan's outcome is discarded. That the pointer stays where the last grant
put it, also where that was a read's, is the model's reading (log 31). -/
def Obligations.SectorEraseCompleteErasesTheSector : Prop :=
  ∀ (b : BankId) (s : State) (st : WriteState) (owner : Owner) (sector : Nat) (chunk : Option Nat) (k : Bank),
    (s.bank b).writeSlot = .busy st ⟨owner, .sectorErase sector, chunk⟩ → st = .erasing ∨ st = .suspending →
    k = { s.bank b with writeSlot := .none, suspendCount := 0 } →
    ∃ array : Memory,
      (∀ a, array.read a = if a / 4096 = sector then 0xFF else s.array.read a)
      ∧ (∀ p cur, owner = .port p → (s.port p).current = some cur →
          (∀ i range, chunk = some i → cur.range = some range → i + 1 < range.count →
            exec (.sectorEraseComplete b) s
              = .next { s.setBank b (k.setCandidate p
                  (some ⟨.sectorErase (range.first + (i + 1)), some (i + 1), true⟩)) with array := array }.finish)
          ∧ (chunk = none ∨ cur.range = none
              ∨ (∃ i range, chunk = some i ∧ cur.range = some range ∧ range.count ≤ i + 1) →
            exec (.sectorEraseComplete b) s
              = .next { (s.setBank b k).finished p cur.request .done false [] with array := array }.finish))
      ∧ (owner = .orphan →
          exec (.sectorEraseComplete b) s = .next { s.setBank b k with array := array }.finish)

/-! ## The Boot Supervisor and the Configuration Store -/

/-- R112: what the release of a pulse does, by the record as it stands. -/
def Obligations.PulseReleaseBootsTheRecord : Prop :=
  ∀ (p : Port) (s : State) (x : PortState), x = s.port p → x.pulse ≠ .stopped →
    (x.boot.enabled = false →
      exec (.pulseRelease p) s = .next (s.setPort p { x with pulse := .stopped }).finish)
    ∧ (∀ t, x.boot.enabled = true → x.trial = some t →
      exec (.pulseRelease p) s
        = .next (s.setPort p { x with
            pulse := .stopped
            windows := (x.windows.set 0 (some (x.boot.slot t))).set 1 (some (x.boot.slot x.boot.active))
            bootState := .trial
            bootTimer := .running x.boot.bootPeriod.ms }).finish)
    ∧ (x.boot.enabled = true → x.trial = none →
      exec (.pulseRelease p) s
        = .next (s.setPort p { x with
            pulse := .stopped
            windows := (x.windows.set 0 (some (x.boot.slot x.boot.active))).set 1
              (some (x.boot.slot x.boot.active.other))
            bootState := .unconfirmed
            bootTimer := .running x.boot.bootPeriod.ms }).finish)

/-- R115, R116, R120, R122: the boot timer's expiry is a trial fallback in TRIAL; in UNCONFIRMED it counts an attempt, and
starts a pulse below the limit or fails the port at it. Half the watchdog period sets WATCHDOG_HALF once for each start or
restart; the full period starts a pulse. -/
def Obligations.BootTimerAndWatchdogRunOut : Prop :=
  (∀ (p : Port) (s : State) (ms : Nat), (s.port p).bootTimer = .running ms →
    ((s.port p).bootState = .trial →
      exec (.bootTimerExpiry p) s
        = .next ((s.setPort p { s.port p with
            trial := none, sticky := (s.port p).sticky ||| 0x08 }).pulseStart p (some .trialTimeout)).finish)
    ∧ ((s.port p).bootState = .unconfirmed → (s.port p).attempts + 1 < (s.port p).boot.attemptLimit →
      exec (.bootTimerExpiry p) s
        = .next ((s.setPort p { s.port p with attempts := (s.port p).attempts + 1 }).pulseStart p
            (some .bootTimeout)).finish)
    ∧ ((s.port p).bootState = .unconfirmed → (s.port p).boot.attemptLimit ≤ (s.port p).attempts + 1 →
      exec (.bootTimerExpiry p) s
        = .next ((s.setPort p { s.port p with attempts := (s.port p).attempts + 1 }).enterFailed p).finish))
  ∧ ∀ (p : Port) (s : State) (ms : Nat),
    ((s.port p).watchdog = .running ms false →
      exec (.watchdogHalf p) s
        = .next (s.setPort p { s.port p with
            watchdog := .running ms true, sticky := (s.port p).sticky ||| 0x10 }))
    ∧ ((s.port p).watchdog = .running ms true → exec (.watchdogHalf p) s = .next s)
    ∧ ∀ half, (s.port p).watchdog = .running ms half →
      exec (.watchdogExpiry p) s = .next (s.pulseStart p (some .watchdog)).finish

/-- R131, R134, R137: a write of the block begins with a snapshot of the stored fields and the block giving up its image; at
its completion the block holds the snapshot and its check value, the CRC-32 of the image's bytes, STORE_DONE is set at the
administrator port and a carried STORE_CONFIG completes DONE. That a write is due by its marks beside an IDLE writer, those
left at a completion included, and begins at the end of the same event is the model's (log 27), and so are the block as an
image or none and the order of an image's bytes (log 14). -/
def Obligations.ConfigurationWriteBeginsAndCompletes : Prop :=
  (∀ s : State, s.writer.snapshot = none → s.writer.waiting = true ∨ s.writer.commitPending = true →
    exec .configurationWriteBegin s
      = .next { s with block := none, writer := ⟨some s.snapshot, false, false, s.writer.waiting⟩ }.finish)
  ∧ (∀ (s : State) (p : Port),
      (∀ n : RegionId, s.snapshot.regions[n] = (match s.region n with
        | .unused => .unused
        | .inUse _ range levels => .inUse false range levels))
      ∧ s.snapshot.windows[p] = (s.port p).windows ∧ s.snapshot.boot[p] = (s.port p).boot
      ∧ s.snapshot.settings[p] = (s.port p).settings)
  ∧ ∀ (s u : State) (image : ConfigImage), s.writer.snapshot = some image →
    u = ({ s with
        block := some ⟨image, ~~~(crc32Bytes 0xFFFFFFFF image.bytes)⟩
        writer := { s.writer with snapshot := none, carried := false } } : State).modPort s.admin
          (fun x => { x with sticky := x.sticky ||| 0x20 }) →
    (s.writer.carried = false → exec .configurationWriteComplete s = .next u.finish)
    ∧ ∀ cur, s.writer.carried = true → (s.port s.admin).current = some cur →
      exec .configurationWriteComplete s = .next (u.finished s.admin cur.request .done false []).finish

/-- R113, R129, R158, R163, R173, Table 7-3: MRST, ATTN, the event status, STLED's condition and the pins as the state gives
them. What stands without power (log 13), the level that a display begins with (log 20), the low level of STLED for off
(log 34) and the select lines held through a reset (log 19) are the model's. -/
def Obligations.LinesFollowTheState : Prop :=
  ∀ (s : State) (p : Port),
    (s.mrstAsserted p = true ↔ s.startUp = .resetTaken ∨ s.startUp = .loading ∨ (s.port p).pulse ≠ .stopped
      ∨ (s.port p).bootState = .failed)
    ∧ ((s.port p).eventStatus
        = if (s.port p).completions = [] then (s.port p).sticky else (s.port p).sticky ||| 0x01)
    ∧ (s.attnAsserted p = true ↔
        ∃ i, (s.port p).eventStatus.getLsbD i = true ∧ (s.port p).enables.getLsbD i = true)
    ∧ (s.startUp = .resetTaken ∨ s.startUp = .loading → s.ledCondition = .steady)
    ∧ (s.startUp = .unpowered → s.ledCondition = .off)
    ∧ (s.startUp = .ready →
      ((∃ q : Port, (s.port q).bootState = .failed) → s.ledCondition = .steady)
      ∧ ((∀ q : Port, (s.port q).bootState ≠ .failed) →
        ((∃ q : Port, (s.port q).sticky.getLsbD 3 = true) → s.ledCondition = .blink4Hz)
        ∧ ((∀ q : Port, (s.port q).sticky.getLsbD 3 = false) →
          ((∃ q : Port, (s.port q).bootState = .trial ∨ (s.port q).bootState = .unconfirmed) →
            s.ledCondition = .blink1Hz)
          ∧ ((∀ q : Port, (s.port q).bootState ≠ .trial ∧ (s.port q).bootState ≠ .unconfirmed) →
            s.ledCondition = .off))))
    ∧ (s.refreshLed.led.display = s.ledCondition
      ∧ (s.ledCondition = s.led.display → s.refreshLed = s)
      ∧ (s.ledCondition ≠ s.led.display →
          s.refreshLed = { s with led := ⟨s.ledCondition, decide (s.ledCondition ≠ .off)⟩ }))
    ∧ (s.startUp ≠ .unpowered →
      s.mrstPin p = (if s.mrstAsserted p = true then .low else .high)
      ∧ s.attnPin p = (if s.attnAsserted p = true then .low else .floating)
      ∧ s.stledPin = (if s.led.lit = true then .high else .low)
      ∧ s.sdoDriven p = (s.port p).selected)
    ∧ (s.startUp = .unpowered →
      s.mrstPin p = .floating ∧ s.attnPin p = .floating ∧ s.stledPin = .floating ∧ s.sdoDriven p = false)

/-! ## Frames and invariants -/

/-- R3, R5, R18: only the end of a program, the end of a sector erase, and the resets and loss of power that cut a write
change the array. -/
def Obligations.OnlyWritesAndCutsChangeTheArray : Prop :=
  ∀ (c : Instr) (s t : State), exec c s = .next t →
    c ≠ .powerOnReset → c ≠ .deviceReset → c ≠ .lossOfPower → (∀ b, c ≠ .programComplete b) →
    (∀ b, c ≠ .sectorEraseComplete b) → t.array = s.array

/-- The array keeps its canonical form at every step (log 9). -/
def Obligations.ArrayCanonicalFormIsKept : Prop :=
  ∀ s t : State, s.arrayCanonical → step s = .next t → t.arrayCanonical

/-- R45, R46: no port ever uses more than 8 credits, the one that an ACCEPTED SUBMIT is about to take included. -/
def Obligations.CreditsStayWithinEight : Prop :=
  ∀ s t : State, s.creditsWithinEight → step s = .next t → t.creditsWithinEight

/-- R109 to R126, R154, R155, Table 7-2: boot records stay legal (attempts never above the limit and equal to it exactly
while FAILED; HELD exactly in a supervised pulse; timers as Table 7-2 has them), a held port has no live transaction, and
a part that is not READY is blank: its banks, writer and ports hold their reset values (R140). In that last clause the
values of windows, settings and stored boot fields before the load (log 10) and the part without power (log 13) are the
model's. -/
def Obligations.BootRecordsStayLegal : Prop :=
  ∀ s t : State, s.startUpBlank → s.bootRecordsLegal → step s = .next t → t.startUpBlank ∧ t.bootRecordsLegal

/-- R22, R24, R41, R131, R132: the region and view tables stay consistent, and so do the stored image and a snapshot. -/
def Obligations.TablesStayConsistent : Prop :=
  ∀ s t : State, s.startUpBlank → s.bootRecordsLegal → s.tablesConsistent → step s = .next t → t.tablesConsistent

/-- R7 to R14, R88, R92: write slots, suspend counts and open-stream counts stay legal; an erase is never suspended more
than 8 times, and nothing runs in a slot or stream beside a running write. -/
def Obligations.BanksStayLegal : Prop :=
  ∀ s t : State, s.banksLegal → step s = .next t → t.banksLegal

/-- R48, R49, R64, R97, R133: every current request stands in exactly one place (a candidate set, a slot, or the writer)
and a port with none stands nowhere. With it goes that a part that is not READY is blank (R140): its banks, writer and ports
hold their reset values, of which windows, settings and stored boot fields before the load (log 10) and the part without
power (log 13) are the model's. -/
def Obligations.EveryRequestStandsInOnePlace : Prop :=
  ∀ s t : State, s.startUpBlank → s.requestsPlaced → step s = .next t → t.startUpBlank ∧ t.requestsPlaced

/-- R9, R12, R14, R48, R67, R68, R129, R134, R137: between commands nothing is due (no presentation, no beginning of a
configuration write, and at neither bank a start, a grant, a suspend request or a resume) and STLED shows its condition. That
each of them is taken inside the event that makes it due is the model's reading (log 4, log 5, log 27). -/
def Obligations.NothingIsLeftDue : Prop :=
  ∀ s t : State, s.quiet = true → s.ledShown → step s = .next t → t.nothingDue ∧ t.quiet = true ∧ t.ledShown

/-- R20, R62, R109, R133, R140, R145, R166: the state right after power-on reset has every invariant. What an unwritten array
reads as (log 9), the windows, settings, stored boot fields and regions before the load (log 10), the block of a part as
delivered as none (log 14) and the empty queue of commands (log 1) are the model's. -/
def Obligations.ResetHasEveryInvariant : Prop :=
  State.reset.arrayCanonical ∧ State.reset.creditsWithinEight ∧ State.reset.startUpBlank
  ∧ State.reset.bootRecordsLegal ∧ State.reset.tablesConsistent ∧ State.reset.banksLegal
  ∧ State.reset.requestsPlaced ∧ State.reset.quiet = true ∧ State.reset.ledShown ∧ State.reset.pending = []

end
end

