-- ==== Sys2Proof/Laws/Memory.lean ====
section
/-! SUPPORT. The array: what each memory operation reads back, and that each keeps the canonical form. -/

namespace Sys2Proof.Machine

open Sys2Proof

/-- An address below every listed one reads as an unwritten byte. -/
theorem Memory.read_of_lt (m : Memory) (a : Nat) (h : ∀ c ∈ m, a < c.1) : Memory.read m a = Config.erasedByte := by
  induction m with
  | nil => rfl
  | cons c rest ih =>
    obtain ⟨k, v⟩ := c
    have hk : a < k := h (k, v) (by simp)
    have hne : ¬ k = a := by omega
    simp only [Memory.read, if_neg hne]
    exact ih fun c hc => h c (List.mem_cons_of_mem _ hc)

/-- Every cell of the array after a write is the written one or was listed before. -/
theorem Memory.mem_write (m : Memory) (a : Nat) (b : Byte) (c : Host.Cell) (h : c ∈ Memory.write m a b) :
    c = (a, b) ∧ b ≠ Config.erasedByte ∨ c ∈ m := by
  induction m with
  | nil =>
    by_cases hb : b = Config.erasedByte
    · simp [Memory.write, hb] at h
    · simp [Memory.write, hb] at h
      exact Or.inl ⟨h, hb⟩
  | cons d rest ih =>
    obtain ⟨k, v⟩ := d
    unfold Memory.write at h
    split at h
    · split at h
      · exact Or.inr h
      · rename_i hb
        rcases List.mem_cons.mp h with h | h
        · exact Or.inl ⟨h, hb⟩
        · exact Or.inr h
    · split at h
      · split at h
        · exact Or.inr (List.mem_cons_of_mem _ h)
        · rename_i hb
          rcases List.mem_cons.mp h with h | h
          · exact Or.inl ⟨h, hb⟩
          · exact Or.inr (List.mem_cons_of_mem _ h)
      · rcases List.mem_cons.mp h with h | h
        · exact Or.inr (h ▸ List.mem_cons_self)
        · rcases ih h with h | h
          · exact Or.inl h
          · exact Or.inr (List.mem_cons_of_mem _ h)

/-- A write keeps the canonical form. -/
theorem Memory.wf_write (m : Memory) (a : Nat) (b : Byte) (h : Memory.wf m) : Memory.wf (Memory.write m a b) := by
  refine ⟨?_, ?_⟩
  · obtain ⟨hp, -⟩ := h
    induction m with
    | nil => unfold Memory.write; split <;> simp
    | cons d rest ih =>
      obtain ⟨k, v⟩ := d
      have hp' := List.pairwise_cons.mp hp
      unfold Memory.write
      split
      · rename_i hlt
        split
        · exact hp
        · refine List.pairwise_cons.mpr ⟨?_, hp⟩
          intro c hc
          rcases List.mem_cons.mp hc with hc | hc
          · subst hc; exact hlt
          · exact Nat.lt_trans hlt (hp'.1 c hc)
      · split
        · rename_i heq
          subst heq
          split
          · exact hp'.2
          · exact List.pairwise_cons.mpr ⟨hp'.1, hp'.2⟩
        · rename_i hge hne
          refine List.pairwise_cons.mpr ⟨?_, ih hp'.2⟩
          intro c hc
          rcases Memory.mem_write rest a b c hc with ⟨hc, -⟩ | hc
          · subst hc; show k < a; omega
          · exact hp'.1 c hc
  · intro c hc
    rcases Memory.mem_write m a b c hc with ⟨hc, hb⟩ | hc
    · subst hc; exact hb
    · exact h.2 c hc

/-- What a byte reads as after a write. -/
theorem Memory.read_write (m : Memory) (a : Nat) (b : Byte) (x : Nat) (h : Memory.wf m) :
    Memory.read (Memory.write m a b) x = if x = a then b else Memory.read m x := by
  obtain ⟨hp, -⟩ := h
  induction m with
  | nil =>
    unfold Memory.write
    split
    · rename_i hb
      subst hb
      split <;> rfl
    · simp only [Memory.read]
      by_cases hx : x = a
      · simp [hx]
      · have : ¬ a = x := fun h => hx h.symm
        simp [hx, this]
  | cons d rest ih =>
    obtain ⟨k, v⟩ := d
    have hp' := List.pairwise_cons.mp hp
    unfold Memory.write
    split
    · rename_i hlt
      split
      · rename_i hb
        by_cases hx : x = a
        · subst hx
          rw [if_pos rfl, hb]
          apply Memory.read_of_lt
          intro c hc
          rcases List.mem_cons.mp hc with hc | hc
          · subst hc; exact hlt
          · exact Nat.lt_trans hlt (hp'.1 c hc)
        · rw [if_neg hx]
      · conv => lhs; unfold Memory.read
        by_cases hx : x = a
        · subst hx; simp
        · have : ¬ a = x := fun h => hx h.symm
          simp [hx, this]
    · split
      · rename_i heq
        subst heq
        split
        · rename_i hb
          by_cases hx : x = a
          · subst hx
            rw [if_pos rfl, hb]
            exact Memory.read_of_lt rest x fun c hc => hp'.1 c hc
          · have : ¬ a = x := fun h => hx h.symm
            simp [Memory.read, hx, this]
        · by_cases hx : x = a
          · subst hx; simp [Memory.read]
          · have : ¬ a = x := fun h => hx h.symm
            simp [Memory.read, hx, this]
      · rename_i hge hne
        have hi := ih hp'.2
        by_cases hk : k = x
        · subst hk
          have : ¬ k = a := fun h => hne h.symm
          simp [Memory.read, this]
        · simp only [Memory.read, if_neg hk, hi]

/-- An erase keeps the canonical form. -/
theorem Memory.wf_erase (m : Memory) (first length : Nat) (h : Memory.wf m) : Memory.wf (Memory.erase m first length) :=
  ⟨h.1.filter _, fun c hc => h.2 c (List.mem_filter.mp hc).1⟩

/-- R5: what a byte reads as after an erase of a run of addresses. -/
theorem Memory.read_erase (m : Memory) (first length x : Nat) :
    Memory.read (Memory.erase m first length) x
      = if first ≤ x ∧ x < first + length then Config.erasedByte else Memory.read m x := by
  induction m with
  | nil => simp [Memory.erase, Memory.read]
  | cons d rest ih =>
    obtain ⟨k, v⟩ := d
    simp only [Memory.erase] at ih ⊢
    by_cases hin : first ≤ k ∧ k < first + length
    · rw [List.filter_cons_of_neg (by simp [hin]), ih]
      split
      · rfl
      · rename_i hx
        have hk : ¬ k = x := fun h => hx (h ▸ hin)
        simp [Memory.read, hk]
    · rw [List.filter_cons_of_pos (by simp; omega)]
      simp only [Memory.read]
      by_cases hk : k = x
      · subst hk; simp [hin]
      · rw [if_neg hk, if_neg hk, ih]

/-- A program keeps the canonical form. -/
theorem Memory.wf_program (m : Memory) (page start : Nat) (data : List Byte) (h : Memory.wf m) :
    Memory.wf (Memory.program m page start data) := by
  induction data generalizing m start with
  | nil => exact h
  | cons d rest ih => exact ih _ _ (Memory.wf_write _ _ _ h)

/-- R4: a program changes no byte outside its page. -/
theorem Memory.read_program_outside (m : Memory) (page start x : Nat) (data : List Byte) (h : Memory.wf m)
    (hx : x < page ∨ page + Config.pageBytes ≤ x) :
    Memory.read (Memory.program m page start data) x = Memory.read m x := by
  induction data generalizing m start with
  | nil => rfl
  | cons d rest ih =>
    show Memory.read (Memory.program _ page (start + 1) rest) x = _
    rw [ih _ _ (Memory.wf_write _ _ _ h), Memory.read_write _ _ _ _ h, if_neg]
    have : start % Config.pageBytes < Config.pageBytes := Nat.mod_lt _ (by decide)
    omega

/-- A cut keeps the canonical form. -/
theorem Memory.wf_scramble (m : Memory) (first n length : Nat) (h : Memory.wf m) :
    Memory.wf (Memory.scramble m first n length) := by
  induction length generalizing m first n with
  | zero => exact h
  | succ length ih => exact ih _ _ _ (Memory.wf_write _ _ _ h)

/-- R18, R19: what a byte reads as after a cut of a run of addresses: inside, the free byte drawn for it. -/
theorem Memory.read_scramble (m : Memory) (first n length x : Nat) (h : Memory.wf m) :
    Memory.read (Memory.scramble m first n length) x
      = if first ≤ x ∧ x < first + length then Config.freeByte (n + (x - first)) else Memory.read m x := by
  induction length generalizing m first n with
  | zero =>
    have : ¬ (first ≤ x ∧ x < first + 0) := by omega
    rw [if_neg this]; rfl
  | succ length ih =>
    show Memory.read (Memory.scramble _ (first + 1) (n + 1) length) x = _
    rw [ih _ _ _ (Memory.wf_write _ _ _ h), Memory.read_write _ _ _ _ h]
    by_cases hx : x = first
    · subst hx
      rw [if_neg (by omega), if_pos rfl, if_pos (by omega)]
      simp
    · by_cases hin : first + 1 ≤ x ∧ x < first + 1 + length
      · rw [if_pos hin, if_pos (by omega)]
        congr 1
        omega
      · rw [if_neg hin, if_neg hx, if_neg (by omega)]

/-- The array right after reset is canonical. -/
theorem State.reset_array_wf : Memory.wf State.reset.array := by
  refine ⟨List.Pairwise.nil, ?_⟩
  intro c hc
  cases hc

end Sys2Proof.Machine
end

