-- ==== Sys2Proof/Laws/State.lean ====
section
/-! SUPPORT. Each field after each named update: one lemma per field per update, so that no proof unfolds a record
update. -/

namespace Sys2Proof.Machine

open Sys2Proof

/-! ## One port, one bank, one region -/

/-- A port replaced reads back, and the other ports are as they were. -/
theorem State.port_setPort (s : State) (p q : Port) (x : PortState) :
    (s.setPort p x).port q = if q = p then x else s.port q := by
  simp only [State.port, State.setPort, Fin.getElem_fin, Vector.getElem_set]
  by_cases h : q = p
  · subst h; simp
  · rw [if_neg (fun e => h (Fin.ext e.symm)), if_neg h]

/-- A port replaced reads back. -/
@[simp] theorem State.port_setPort_self (s : State) (p : Port) (x : PortState) : (s.setPort p x).port p = x := by
  simp [State.port_setPort]

/-- A port changed. -/
theorem State.port_modPort (s : State) (p q : Port) (f : PortState → PortState) :
    (s.modPort p f).port q = if q = p then f (s.port p) else s.port q := State.port_setPort s p q _

/-- A port changed reads back. -/
@[simp] theorem State.port_modPort_self (s : State) (p : Port) (f : PortState → PortState) :
    (s.modPort p f).port p = f (s.port p) := State.port_setPort_self s p _

/-- A bank replaced reads back, and the other is as it was. -/
theorem State.bank_setBank (s : State) (b c : BankId) (k : Bank) :
    (s.setBank b k).bank c = if c = b then k else s.bank c := by
  simp only [State.bank, State.setBank, Fin.getElem_fin, Vector.getElem_set]
  by_cases h : c = b
  · subst h; simp
  · rw [if_neg (fun e => h (Fin.ext e.symm)), if_neg h]

/-- A bank replaced reads back. -/
@[simp] theorem State.bank_setBank_self (s : State) (b : BankId) (k : Bank) : (s.setBank b k).bank b = k := by
  simp [State.bank_setBank]

/-- A bank changed. -/
theorem State.bank_modBank (s : State) (b c : BankId) (f : Bank → Bank) :
    (s.modBank b f).bank c = if c = b then f (s.bank b) else s.bank c := State.bank_setBank s b c _

/-- A bank changed reads back. -/
@[simp] theorem State.bank_modBank_self (s : State) (b : BankId) (f : Bank → Bank) :
    (s.modBank b f).bank b = f (s.bank b) := State.bank_setBank_self s b _

/-- A region entry replaced reads back, and the others are as they were. -/
theorem State.region_setRegion (s : State) (r q : RegionId) (e : RegionEntry) :
    (s.setRegion r e).region q = if q = r then e else s.region q := by
  simp only [State.region, State.setRegion, Fin.getElem_fin, Vector.getElem_set]
  by_cases h : q = r
  · subst h; simp
  · rw [if_neg (fun e => h (Fin.ext e.symm)), if_neg h]

/-- A candidate entry replaced reads back, and the others are as they were. -/
theorem Bank.candidate_setCandidate (k : Bank) (p q : Port) (c : Option Candidate) :
    (k.setCandidate p c).candidate q = if q = p then c else k.candidate q := by
  simp only [Bank.candidate, Bank.setCandidate, Fin.getElem_fin, Vector.getElem_set]
  by_cases h : q = p
  · subst h; simp
  · rw [if_neg (fun e => h (Fin.ext e.symm)), if_neg h]

/-- A port replaced by itself changes nothing. -/
theorem State.setPort_port (s : State) (p : Port) : s.setPort p (s.port p) = s := by
  have h : s.ports.set p (s.port p) = s.ports := by
    apply Vector.ext
    intro i hi
    simp only [Vector.getElem_set, State.port, Fin.getElem_fin]
    split
    · rename_i e; subst e; rfl
    · rfl
  unfold State.setPort
  rw [h]

/-- A bank replaced by itself changes nothing. -/
theorem State.setBank_bank (s : State) (b : BankId) : s.setBank b (s.bank b) = s := by
  have h : s.banks.set b (s.bank b) = s.banks := by
    apply Vector.ext
    intro i hi
    simp only [Vector.getElem_set, State.bank, Fin.getElem_fin]
    split
    · rename_i e; subst e; rfl
    · rfl
  unfold State.setBank
  rw [h]

/-- The later of two replacements of a port stands. -/
@[simp] theorem State.setPort_setPort (s : State) (p : Port) (x y : PortState) :
    (s.setPort p x).setPort p y = s.setPort p y := by
  have h : (s.ports.set p x).set p y = s.ports.set p y := by
    apply Vector.ext
    intro i hi
    simp only [Vector.getElem_set]
    split <;> rfl
  simp only [State.setPort, h]

/-- The later of two replacements of a bank stands. -/
@[simp] theorem State.setBank_setBank (s : State) (b : BankId) (x y : Bank) :
    (s.setBank b x).setBank b y = s.setBank b y := by
  have h : (s.banks.set b x).set b y = s.banks.set b y := by
    apply Vector.ext
    intro i hi
    simp only [Vector.getElem_set]
    split <;> rfl
  simp only [State.setBank, h]

/-- Two states are equal where all that can be read of them is. -/
theorem State.ext_of_views (s t : State) (array : s.array = t.array) (freeCount : s.freeCount = t.freeCount)
    (banks : ∀ b, s.bank b = t.bank b) (regions : ∀ n, s.region n = t.region n) (ports : ∀ p, s.port p = t.port p)
    (admin : s.admin = t.admin) (startUp : s.startUp = t.startUp) (block : s.block = t.block)
    (writer : s.writer = t.writer) (led : s.led = t.led) (pending : s.pending = t.pending) : s = t := by
  have hb : s.banks = t.banks := Vector.ext fun i hi => banks ⟨i, hi⟩
  have hr : s.regions = t.regions := Vector.ext fun i hi => regions ⟨i, hi⟩
  have hp : s.ports = t.ports := Vector.ext fun i hi => ports ⟨i, hi⟩
  cases s
  cases t
  simp_all

/-- Two changes of a port are one. -/
theorem State.modPort_modPort (s : State) (p : Port) (f g : PortState → PortState) :
    (s.modPort p f).modPort p g = s.modPort p (fun x => g (f x)) := by
  simp only [State.modPort, State.port_setPort_self, State.setPort_setPort]

/-! ## Fields a named update leaves alone -/

@[simp] theorem State.array_setPort (s : State) (p : Port) (x : PortState) : (s.setPort p x).array = s.array := rfl
@[simp] theorem State.freeCount_setPort (s : State) (p : Port) (x : PortState) : (s.setPort p x).freeCount = s.freeCount := rfl
@[simp] theorem State.admin_setPort (s : State) (p : Port) (x : PortState) : (s.setPort p x).admin = s.admin := rfl
@[simp] theorem State.startUp_setPort (s : State) (p : Port) (x : PortState) : (s.setPort p x).startUp = s.startUp := rfl
@[simp] theorem State.block_setPort (s : State) (p : Port) (x : PortState) : (s.setPort p x).block = s.block := rfl
@[simp] theorem State.writer_setPort (s : State) (p : Port) (x : PortState) : (s.setPort p x).writer = s.writer := rfl
@[simp] theorem State.led_setPort (s : State) (p : Port) (x : PortState) : (s.setPort p x).led = s.led := rfl
@[simp] theorem State.pending_setPort (s : State) (p : Port) (x : PortState) : (s.setPort p x).pending = s.pending := rfl
@[simp] theorem State.bank_setPort (s : State) (p : Port) (x : PortState) (c : BankId) : (s.setPort p x).bank c = s.bank c := rfl
@[simp] theorem State.region_setPort (s : State) (p : Port) (x : PortState) (n : RegionId) : (s.setPort p x).region n = s.region n := rfl

@[simp] theorem State.array_modPort (s : State) (p : Port) (f : PortState → PortState) : (s.modPort p f).array = s.array := rfl
@[simp] theorem State.freeCount_modPort (s : State) (p : Port) (f : PortState → PortState) : (s.modPort p f).freeCount = s.freeCount := rfl
@[simp] theorem State.admin_modPort (s : State) (p : Port) (f : PortState → PortState) : (s.modPort p f).admin = s.admin := rfl
@[simp] theorem State.startUp_modPort (s : State) (p : Port) (f : PortState → PortState) : (s.modPort p f).startUp = s.startUp := rfl
@[simp] theorem State.block_modPort (s : State) (p : Port) (f : PortState → PortState) : (s.modPort p f).block = s.block := rfl
@[simp] theorem State.writer_modPort (s : State) (p : Port) (f : PortState → PortState) : (s.modPort p f).writer = s.writer := rfl
@[simp] theorem State.led_modPort (s : State) (p : Port) (f : PortState → PortState) : (s.modPort p f).led = s.led := rfl
@[simp] theorem State.pending_modPort (s : State) (p : Port) (f : PortState → PortState) : (s.modPort p f).pending = s.pending := rfl
@[simp] theorem State.bank_modPort (s : State) (p : Port) (f : PortState → PortState) (c : BankId) : (s.modPort p f).bank c = s.bank c := rfl
@[simp] theorem State.region_modPort (s : State) (p : Port) (f : PortState → PortState) (n : RegionId) : (s.modPort p f).region n = s.region n := rfl

@[simp] theorem State.array_setBank (s : State) (b : BankId) (k : Bank) : (s.setBank b k).array = s.array := rfl
@[simp] theorem State.freeCount_setBank (s : State) (b : BankId) (k : Bank) : (s.setBank b k).freeCount = s.freeCount := rfl
@[simp] theorem State.admin_setBank (s : State) (b : BankId) (k : Bank) : (s.setBank b k).admin = s.admin := rfl
@[simp] theorem State.startUp_setBank (s : State) (b : BankId) (k : Bank) : (s.setBank b k).startUp = s.startUp := rfl
@[simp] theorem State.block_setBank (s : State) (b : BankId) (k : Bank) : (s.setBank b k).block = s.block := rfl
@[simp] theorem State.writer_setBank (s : State) (b : BankId) (k : Bank) : (s.setBank b k).writer = s.writer := rfl
@[simp] theorem State.led_setBank (s : State) (b : BankId) (k : Bank) : (s.setBank b k).led = s.led := rfl
@[simp] theorem State.pending_setBank (s : State) (b : BankId) (k : Bank) : (s.setBank b k).pending = s.pending := rfl
@[simp] theorem State.port_setBank (s : State) (b : BankId) (k : Bank) (q : Port) : (s.setBank b k).port q = s.port q := rfl
@[simp] theorem State.region_setBank (s : State) (b : BankId) (k : Bank) (n : RegionId) : (s.setBank b k).region n = s.region n := rfl

@[simp] theorem State.array_modBank (s : State) (b : BankId) (f : Bank → Bank) : (s.modBank b f).array = s.array := rfl
@[simp] theorem State.freeCount_modBank (s : State) (b : BankId) (f : Bank → Bank) : (s.modBank b f).freeCount = s.freeCount := rfl
@[simp] theorem State.admin_modBank (s : State) (b : BankId) (f : Bank → Bank) : (s.modBank b f).admin = s.admin := rfl
@[simp] theorem State.startUp_modBank (s : State) (b : BankId) (f : Bank → Bank) : (s.modBank b f).startUp = s.startUp := rfl
@[simp] theorem State.block_modBank (s : State) (b : BankId) (f : Bank → Bank) : (s.modBank b f).block = s.block := rfl
@[simp] theorem State.writer_modBank (s : State) (b : BankId) (f : Bank → Bank) : (s.modBank b f).writer = s.writer := rfl
@[simp] theorem State.led_modBank (s : State) (b : BankId) (f : Bank → Bank) : (s.modBank b f).led = s.led := rfl
@[simp] theorem State.pending_modBank (s : State) (b : BankId) (f : Bank → Bank) : (s.modBank b f).pending = s.pending := rfl
@[simp] theorem State.port_modBank (s : State) (b : BankId) (f : Bank → Bank) (q : Port) : (s.modBank b f).port q = s.port q := rfl
@[simp] theorem State.region_modBank (s : State) (b : BankId) (f : Bank → Bank) (n : RegionId) : (s.modBank b f).region n = s.region n := rfl

@[simp] theorem State.array_setRegion (s : State) (r : RegionId) (e : RegionEntry) : (s.setRegion r e).array = s.array := rfl
@[simp] theorem State.freeCount_setRegion (s : State) (r : RegionId) (e : RegionEntry) : (s.setRegion r e).freeCount = s.freeCount := rfl
@[simp] theorem State.admin_setRegion (s : State) (r : RegionId) (e : RegionEntry) : (s.setRegion r e).admin = s.admin := rfl
@[simp] theorem State.startUp_setRegion (s : State) (r : RegionId) (e : RegionEntry) : (s.setRegion r e).startUp = s.startUp := rfl
@[simp] theorem State.block_setRegion (s : State) (r : RegionId) (e : RegionEntry) : (s.setRegion r e).block = s.block := rfl
@[simp] theorem State.writer_setRegion (s : State) (r : RegionId) (e : RegionEntry) : (s.setRegion r e).writer = s.writer := rfl
@[simp] theorem State.led_setRegion (s : State) (r : RegionId) (e : RegionEntry) : (s.setRegion r e).led = s.led := rfl
@[simp] theorem State.pending_setRegion (s : State) (r : RegionId) (e : RegionEntry) : (s.setRegion r e).pending = s.pending := rfl
@[simp] theorem State.port_setRegion (s : State) (r : RegionId) (e : RegionEntry) (q : Port) : (s.setRegion r e).port q = s.port q := rfl
@[simp] theorem State.bank_setRegion (s : State) (r : RegionId) (e : RegionEntry) (c : BankId) : (s.setRegion r e).bank c = s.bank c := rfl

@[simp] theorem State.array_setWindow (s : State) (p : Port) (w : Fin 4) (r : Option RegionId) : (s.setWindow p w r).array = s.array := rfl
@[simp] theorem State.freeCount_setWindow (s : State) (p : Port) (w : Fin 4) (r : Option RegionId) : (s.setWindow p w r).freeCount = s.freeCount := rfl
@[simp] theorem State.admin_setWindow (s : State) (p : Port) (w : Fin 4) (r : Option RegionId) : (s.setWindow p w r).admin = s.admin := rfl
@[simp] theorem State.startUp_setWindow (s : State) (p : Port) (w : Fin 4) (r : Option RegionId) : (s.setWindow p w r).startUp = s.startUp := rfl
@[simp] theorem State.block_setWindow (s : State) (p : Port) (w : Fin 4) (r : Option RegionId) : (s.setWindow p w r).block = s.block := rfl
@[simp] theorem State.writer_setWindow (s : State) (p : Port) (w : Fin 4) (r : Option RegionId) : (s.setWindow p w r).writer = s.writer := rfl
@[simp] theorem State.led_setWindow (s : State) (p : Port) (w : Fin 4) (r : Option RegionId) : (s.setWindow p w r).led = s.led := rfl
@[simp] theorem State.pending_setWindow (s : State) (p : Port) (w : Fin 4) (r : Option RegionId) : (s.setWindow p w r).pending = s.pending := rfl
@[simp] theorem State.bank_setWindow (s : State) (p : Port) (w : Fin 4) (r : Option RegionId) (c : BankId) : (s.setWindow p w r).bank c = s.bank c := rfl
@[simp] theorem State.region_setWindow (s : State) (p : Port) (w : Fin 4) (r : Option RegionId) (n : RegionId) : (s.setWindow p w r).region n = s.region n := rfl

@[simp] theorem State.array_raise (s : State) (p : Port) (e : Event) : (s.raise p e).array = s.array := rfl
@[simp] theorem State.freeCount_raise (s : State) (p : Port) (e : Event) : (s.raise p e).freeCount = s.freeCount := rfl
@[simp] theorem State.admin_raise (s : State) (p : Port) (e : Event) : (s.raise p e).admin = s.admin := rfl
@[simp] theorem State.startUp_raise (s : State) (p : Port) (e : Event) : (s.raise p e).startUp = s.startUp := rfl
@[simp] theorem State.block_raise (s : State) (p : Port) (e : Event) : (s.raise p e).block = s.block := rfl
@[simp] theorem State.writer_raise (s : State) (p : Port) (e : Event) : (s.raise p e).writer = s.writer := rfl
@[simp] theorem State.led_raise (s : State) (p : Port) (e : Event) : (s.raise p e).led = s.led := rfl
@[simp] theorem State.pending_raise (s : State) (p : Port) (e : Event) : (s.raise p e).pending = s.pending := rfl
@[simp] theorem State.bank_raise (s : State) (p : Port) (e : Event) (c : BankId) : (s.raise p e).bank c = s.bank c := rfl
@[simp] theorem State.region_raise (s : State) (p : Port) (e : Event) (n : RegionId) : (s.raise p e).region n = s.region n := rfl

@[simp] theorem State.array_setCause (s : State) (p : Port) (g : Cause) : (s.setCause p g).array = s.array := rfl
@[simp] theorem State.freeCount_setCause (s : State) (p : Port) (g : Cause) : (s.setCause p g).freeCount = s.freeCount := rfl
@[simp] theorem State.admin_setCause (s : State) (p : Port) (g : Cause) : (s.setCause p g).admin = s.admin := rfl
@[simp] theorem State.startUp_setCause (s : State) (p : Port) (g : Cause) : (s.setCause p g).startUp = s.startUp := rfl
@[simp] theorem State.block_setCause (s : State) (p : Port) (g : Cause) : (s.setCause p g).block = s.block := rfl
@[simp] theorem State.writer_setCause (s : State) (p : Port) (g : Cause) : (s.setCause p g).writer = s.writer := rfl
@[simp] theorem State.led_setCause (s : State) (p : Port) (g : Cause) : (s.setCause p g).led = s.led := rfl
@[simp] theorem State.pending_setCause (s : State) (p : Port) (g : Cause) : (s.setCause p g).pending = s.pending := rfl
@[simp] theorem State.bank_setCause (s : State) (p : Port) (g : Cause) (c : BankId) : (s.setCause p g).bank c = s.bank c := rfl
@[simp] theorem State.region_setCause (s : State) (p : Port) (g : Cause) (n : RegionId) : (s.setCause p g).region n = s.region n := rfl

@[simp] theorem State.array_clearSticky (s : State) (p : Port) (m : Byte) : (s.clearSticky p m).array = s.array := rfl
@[simp] theorem State.freeCount_clearSticky (s : State) (p : Port) (m : Byte) : (s.clearSticky p m).freeCount = s.freeCount := rfl
@[simp] theorem State.admin_clearSticky (s : State) (p : Port) (m : Byte) : (s.clearSticky p m).admin = s.admin := rfl
@[simp] theorem State.startUp_clearSticky (s : State) (p : Port) (m : Byte) : (s.clearSticky p m).startUp = s.startUp := rfl
@[simp] theorem State.block_clearSticky (s : State) (p : Port) (m : Byte) : (s.clearSticky p m).block = s.block := rfl
@[simp] theorem State.writer_clearSticky (s : State) (p : Port) (m : Byte) : (s.clearSticky p m).writer = s.writer := rfl
@[simp] theorem State.led_clearSticky (s : State) (p : Port) (m : Byte) : (s.clearSticky p m).led = s.led := rfl
@[simp] theorem State.pending_clearSticky (s : State) (p : Port) (m : Byte) : (s.clearSticky p m).pending = s.pending := rfl
@[simp] theorem State.bank_clearSticky (s : State) (p : Port) (m : Byte) (c : BankId) : (s.clearSticky p m).bank c = s.bank c := rfl
@[simp] theorem State.region_clearSticky (s : State) (p : Port) (m : Byte) (n : RegionId) : (s.clearSticky p m).region n = s.region n := rfl

end Sys2Proof.Machine
end

