-- ==== Sys2Proof/Laws/Ops.lean ====
section
/-! SUPPORT. One lemma per shared operation, saying all it does: completion, joining, streams, the cut, bytes clocked,
the search. -/

namespace Sys2Proof.Machine

open Sys2Proof

/-- Every port is listed. -/
theorem mem_allPorts (p : Port) : p ∈ allPorts := by revert p; decide

/-- Both banks are listed. -/
theorem mem_allBanks (b : BankId) : b ∈ allBanks := by revert b; decide

/-- Every region is listed. -/
theorem mem_allRegions (r : RegionId) : r ∈ allRegions := by revert r; decide

/-- R50: the completion of a current request, whole. -/
theorem State.complete_of_current (s : State) (p : Port) (cur : Current) (st : Status) (w : Bool) (data : List Byte)
    (h : (s.port p).current = some cur) :
    s.complete p st w data
      = s.setPort p { s.port p with
          current := none
          completions := (s.port p).completions ++ [⟨cur.request.tag, cur.request.kind, st, w, data⟩] } := by
  simp only [State.complete, h, State.modPort]

/-- A port with no current request completes nothing. -/
theorem State.complete_of_none (s : State) (p : Port) (st : Status) (w : Bool) (data : List Byte)
    (h : (s.port p).current = none) : s.complete p st w data = s := by
  simp only [State.complete, h]

/-- A completion leaves everything but its port alone. -/
theorem State.complete_frame (s : State) (p : Port) (st : Status) (w : Bool) (data : List Byte) :
    ∃ x, s.complete p st w data = s.setPort p x := by
  unfold State.complete
  split
  · exact ⟨s.port p, (s.setPort_port p).symm⟩
  · exact ⟨_, rfl⟩

/-- R92: the close of an open stream, whole. -/
theorem State.closeStream_of_open (s : State) (p : Port) (t : Stream) (h : (s.port p).stream = some t) :
    s.closeStream p
      = (s.setPort p { s.port p with stream := none }).setBank t.bank
          { s.bank t.bank with openStreams := (s.bank t.bank).openStreams - 1 } := by
  simp only [State.closeStream, h, State.modPort, State.modBank, State.bank_setPort]

/-- A port with no open stream closes nothing. -/
theorem State.closeStream_of_none (s : State) (p : Port) (h : (s.port p).stream = none) : s.closeStream p = s := by
  simp only [State.closeStream, h]

/-- R154: the cut of a live transaction, whole. -/
theorem State.cutTransaction_of_live (s : State) (p : Port) (t : Transaction)
    (h : (s.port p).transaction = some t) (hl : t.isLive = true) :
    s.cutTransaction p
      = s.setPort p { s.port p with
          transaction := some { t with cut := true, holdTimer := .stopped }
          sticky := (s.port p).sticky ||| Event.frameAbort.mask } := by
  simp only [State.cutTransaction, h, hl, if_pos, State.raise, State.modPort, State.port_setPort_self,
    State.setPort_setPort]

/-- A port with no live transaction has nothing to cut. -/
theorem State.cutTransaction_of_not_live (s : State) (p : Port) (h : (s.port p).hasLive = false) :
    s.cutTransaction p = s := by
  unfold State.cutTransaction
  split
  · rfl
  · rename_i t ht
    simp only [PortState.hasLive, ht, Option.any_some] at h
    simp [h]

/-- Bytes clocked by a transaction that answers nothing are filler (R145, R155). -/
theorem State.clockOut_silent (s : State) (p : Port) (n : Nat) (t : Transaction)
    (h : (s.port p).transaction = some t) (ha : t.answering = none) :
    s.clockOut p n
      = s.setPort p { s.port p with
          transaction := some { t with taken := t.taken + n }
          sdo := (s.port p).sdo ++ List.replicate n Config.filler } := by
  simp only [State.clockOut, h, ha, State.send, State.modPort, List.length_replicate]

/-- With no transaction in progress no byte is clocked. -/
theorem State.clockOut_of_none (s : State) (p : Port) (n : Nat) (h : (s.port p).transaction = none) :
    s.clockOut p n = s := by
  simp only [State.clockOut, h]

/-- A sample has one byte for each address. -/
theorem State.sample_length (s : State) (as : List Nat) (n : Nat) : (s.sample as n).1.length = as.length := by
  induction as generalizing n with
  | nil => rfl
  | cons a rest ih =>
    unfold State.sample
    split <;> simp [ih]

/-- R2: where no address is under erase, a sample is the stored bytes and draws no free byte. -/
theorem State.sample_stored (s : State) (as : List Nat) (n : Nat) (h : ∀ a ∈ as, s.underErase a = false) :
    s.sample as n = (as.map s.array.read, n) := by
  induction as generalizing n with
  | nil => rfl
  | cons a rest ih =>
    have ha := h a (by simp)
    have hr := ih n fun x hx => h x (List.mem_cons_of_mem _ hx)
    simp [State.sample, ha, hr]

/-- R68: what a search grants is an entry that may be granted. -/
theorem Bank.nextGrant_sound (k : Bank) (p : Port) (c : Candidate) (h : k.nextGrant = some (p, c)) :
    k.candidate p = some c ∧ k.mayGrant c = true := by
  obtain ⟨q, -, hq⟩ := List.exists_of_findSome?_eq_some h
  unfold Bank.grantable at hq
  split at hq
  · cases hq
  · rename_i c' hc
    split at hq
    · rename_i hm
      cases hq
      exact ⟨hc, hm⟩
    · cases hq

/-- Whether a read candidate is present at a bank (R12, R14). -/
theorem Bank.hasReadCandidate_iff (k : Bank) :
    k.hasReadCandidate = true ↔ ∃ (p : Port) (c : Candidate), k.candidate p = some c ∧ c.target.isRead = true := by
  simp only [Bank.hasReadCandidate, List.any_eq_true, Option.any_eq_true]
  exact ⟨fun ⟨p, _, c, h⟩ => ⟨p, c, h⟩, fun ⟨p, c, h⟩ => ⟨p, mem_allPorts p, c, h⟩⟩

/-- A search visits every port (R68). -/
theorem Bank.mem_searchOrder (k : Bank) (p : Port) : p ∈ k.searchOrder := by
  have : ∀ q p : Port, p ∈ [q, q + 1, q + 2, q + 3] := by decide
  exact this k.pointer p

/-- R67, R68: a search finds nothing exactly when no entry may be granted. -/
theorem Bank.nextGrant_eq_none_iff (k : Bank) :
    k.nextGrant = none ↔ ∀ (p : Port) (c : Candidate), k.candidate p = some c → k.mayGrant c = false := by
  simp only [Bank.nextGrant, List.findSome?_eq_none_iff]
  constructor
  · intro h p c hc
    have := h p (k.mem_searchOrder p)
    simpa [Bank.grantable, hc] using this
  · intro h p _
    cases hc : k.candidate p with
    | none => simp [Bank.grantable, hc]
    | some c => simp [Bank.grantable, hc, h p c hc]

/-- The four tests of a bank, whole: no step is due there (R9, R12, R14, R68). -/
theorem Bank.nothingDue_iff (k : Bank) :
    k.nothingDue ↔ k.startDue = none ∧ k.nextGrant = none ∧ k.suspendDue = false ∧ k.resumeDue = false := by
  have hr : k.hasReadCandidate = false ↔
      ∀ (p : Port) (c : Candidate), k.candidate p = some c → c.target.isRead = false := by
    rw [← Bool.not_eq_true, k.hasReadCandidate_iff]
    simp
  have hs : k.suspendDue = false ↔ ∀ op, k.writeSlot = .busy .erasing op → k.suspendCount < 8 →
      ∀ (p : Port) (c : Candidate), k.candidate p = some c → c.target.isRead = false := by
    rw [Bank.suspendDue, Bool.and_eq_false_iff, hr]
    cases hw : k.writeSlot with
    | none => simp [Bank.suspendable, hw]
    | busy st op =>
      by_cases hn : k.suspendCount < 8 <;> cases st <;> simp [Bank.suspendable, Config.suspendLimit, hw, hn]
  have hm : k.resumeDue = false ↔ ∀ op, k.writeSlot = .busy .suspended op →
      k.readSlot ≠ none ∨ k.openStreams ≠ 0
        ∨ ∃ (p : Port) (c : Candidate), k.candidate p = some c ∧ c.target.isRead = true := by
    rw [← k.hasReadCandidate_iff]
    cases hw : k.writeSlot with
    | none => simp [Bank.resumeDue, hw]
    | busy st op =>
      cases st <;> cases hk : k.readSlot <;> by_cases hn : k.openStreams = 0 <;> simp [Bank.resumeDue, hw, hk, hn]
  have hd : k.startDue = none ↔ ∀ op, k.writeSlot = .busy .starting op → k.readSlot ≠ none ∨ k.openStreams ≠ 0 := by
    cases hw : k.writeSlot with
    | none => simp [Bank.startDue, hw]
    | busy st op => cases st <;> cases hk : k.readSlot <;> simp [Bank.startDue, hw, hk]
  have hg : k.nextGrant = none ↔ ∀ (p : Port) (c : Candidate), k.candidate p = some c →
      (c.target.isRead = true →
        k.readSlot ≠ none ∨ k.writeSlot ≠ .none ∧ ∀ op, k.writeSlot ≠ .busy .suspended op)
      ∧ (c.target.isRead = false → k.writeSlot ≠ .none) := by
    rw [k.nextGrant_eq_none_iff]
    refine forall_congr' fun p => forall_congr' fun c => imp_congr_right fun _ => ?_
    cases hc : c.target.isRead <;> cases hk : k.readSlot <;> cases hw : k.writeSlot with
    | none => simp [Bank.mayGrant, hc, hk, hw, WriteSlot.isNone, WriteSlot.permitsRead]
    | busy st op => cases st <;> simp [Bank.mayGrant, hc, hk, hw, WriteSlot.isNone, WriteSlot.permitsRead]
  rw [hd, hg, hs, hm]
  rfl

/-- R131: a stored image passes both tests of R132 exactly when its fields are consistent: its check value is its own. -/
@[simp] theorem ConfigImage.valid_withCheck (i : ConfigImage) : i.withCheck.valid = i.consistent := by
  simp [StoredImage.valid, StoredImage.checkPasses, ConfigImage.withCheck]

/-- R142: the image that a load uses is one of the block that is valid. -/
theorem validImage_eq_some (b : Option StoredImage) (i : ConfigImage) :
    validImage b = some i ↔ ∃ x, b = some x ∧ x.valid = true ∧ x.image = i := by
  cases b with
  | none => simp [validImage]
  | some x => by_cases h : x.valid = true <;> simp [validImage, h]

/-- R96, R131: the check value of an image. -/
theorem ConfigImage.check_withCheck (i : ConfigImage) : i.withCheck.check = ~~~(crc32Bytes 0xFFFFFFFF i.bytes) := rfl

/-- R132, R137, R142: the image of a completed write is the one a load uses, where its fields are consistent. -/
theorem validImage_withCheck (i : ConfigImage) (h : i.consistent = true) : validImage (some i.withCheck) = some i :=
  (validImage_eq_some _ i).2 ⟨_, rfl, by simpa using h, rfl⟩

/-- R132: an image whose check value is not its own fails the first test, and a load does not use it. -/
theorem validImage_of_other_check (i : ConfigImage) (check : Word) (h : check ≠ i.check) :
    validImage (some ⟨i, check⟩) = none := by
  have hc : (⟨i, check⟩ : StoredImage).checkPasses = false := by simpa [StoredImage.checkPasses] using h
  simp only [validImage, StoredImage.valid, hc, Bool.false_and, Bool.false_eq_true, if_false]

/-- Table 11-1: the code of a level names it again. -/
@[simp] theorem levelOfByte_code (l : Level) : levelOfByte l.code = some l := by cases l <;> rfl

/-- Table 11-1: the code of a slot names it again. -/
@[simp] theorem slotOfByte_code (t : Slot) : slotOfByte t.code = some t := by cases t <;> rfl

/-- Table 11-1: the code of a boot period names it again. -/
@[simp] theorem bootPeriodOfByte_code (t : BootPeriod) : bootPeriodOfByte t.code = some t := by cases t <;> rfl

/-- Table 11-1: the code of a watchdog period names it again. -/
@[simp] theorem watchdogPeriodOfByte_code (t : WatchdogPeriod) : watchdogPeriodOfByte t.code = some t := by
  cases t <;> rfl

/-- Table 11-1: the code of a deadline names it again. -/
@[simp] theorem deadlineOfByte_code (t : Deadline) : deadlineOfByte t.code = some t := by cases t <;> rfl

/-- Table 11-1: the code of a window's binding names it again. -/
@[simp] theorem bindTargetOfByte_code (t : Option RegionId) : bindTargetOfByte (bindingByte t) = some t := by
  revert t
  decide

end Sys2Proof.Machine
end

