-- ==== Sys2Proof/Laws/Settle.lean ====
section
/-! SUPPORT. Every step due inside an event lowers the bound `work`, so `finish` takes all of them; what `finish` leaves. -/

namespace Sys2Proof.Machine

open Sys2Proof

/-! ## The bound -/

/-- The bound of a state with no longer queues, no more work at the banks and no new write due is no greater. -/
theorem State.work_mono {s t : State} (hq : ∀ p, (t.port p).queue.length ≤ (s.port p).queue.length)
    (hb : ∀ b, (t.bank b).work ≤ (s.bank b).work) (hw : t.writeDue = true → s.writeDue = true) : t.work ≤ s.work := by
  have h0 := hq 0
  have h1 := hq 1
  have h2 := hq 2
  have h3 := hq 3
  have hb0 := hb 0
  have hb1 := hb 1
  have hd : (if t.writeDue = true then 1 else 0) ≤ (if s.writeDue = true then 1 else 0) := by
    by_cases h : t.writeDue = true
    · simp [h, hw h]
    · simp [h]
  simp only [State.work, allPorts, List.map_cons, List.map_nil, List.sum_cons, List.sum_nil]
  omega

/-- A port's queue is all that a change of a port can do to the bound. -/
theorem State.work_modPort_le (s : State) (p : Port) (f : PortState → PortState)
    (h : (f (s.port p)).queue.length ≤ (s.port p).queue.length) : (s.modPort p f).work ≤ s.work := by
  refine State.work_mono (fun q => ?_) (fun b => by simp) (fun h => h)
  rw [State.port_modPort]
  split
  · rename_i e; subst e; exact h
  · exact Nat.le_refl _

/-- A completion does not raise the bound. -/
theorem State.work_complete_le (s : State) (p : Port) (st : Status) (w : Bool) (data : List Byte) :
    (s.complete p st w data).work ≤ s.work := by
  unfold State.complete
  split
  · exact Nat.le_refl _
  · exact s.work_modPort_le p _ (Nat.le_refl _)

/-- The number of entries of a candidate set with one entry removed. -/
theorem Bank.work_setCandidate_none_le (k : Bank) (p : Port) : (k.setCandidate p none).work ≤ k.work := by
  have h : ∀ q, ((k.setCandidate p none).candidate q).isSome = true → (k.candidate q).isSome = true := by
    intro q
    rw [Bank.candidate_setCandidate]
    split <;> simp
  have := List.Sublist.length_le (List.monotone_filter_right allPorts h)
  simp only [Bank.work]
  have e : (k.setCandidate p none).writeSlot = k.writeSlot := rfl
  rw [e]
  omega

/-- A granted entry leaves its set: the bound falls by 3. -/
theorem Bank.work_setCandidate_none_lt (k : Bank) (p : Port) (c : Candidate) (h : k.candidate p = some c) :
    (k.setCandidate p none).work + 3 = k.work := by
  have e : (k.setCandidate p none).writeSlot = k.writeSlot := rfl
  have h' : ∀ q, ((k.setCandidate p none).candidate q) = if q = p then none else k.candidate q := fun q =>
    Bank.candidate_setCandidate k p q none
  simp only [Bank.work, e, allPorts, List.filter_cons, List.filter_nil, h']
  revert h
  fin_cases p <;> intro h <;> simp_all <;> split <;> split <;> split <;> simp_all <;> omega

/-- An entry that joins a set raises the bound by at most 3. -/
theorem Bank.work_setCandidate_le (k : Bank) (p : Port) (c : Option Candidate) : (k.setCandidate p c).work ≤ k.work + 3 := by
  have e : (k.setCandidate p c).writeSlot = k.writeSlot := rfl
  have h' : ∀ q, ((k.setCandidate p c).candidate q) = if q = p then c else k.candidate q := fun q =>
    Bank.candidate_setCandidate k p q c
  simp only [Bank.work, e, allPorts, List.filter_cons, List.filter_nil, h']
  cases c <;> fin_cases p <;> simp <;> split <;> split <;> split <;> split <;> simp_all <;> omega

/-- What a change of one bank can do to the bound. -/
theorem State.work_setBank (s : State) (b : BankId) (k : Bank) :
    (s.setBank b k).work + (s.bank b).work = s.work + k.work := by
  have hd : (s.setBank b k).writeDue = s.writeDue := rfl
  simp only [State.work, hd, State.port_setBank]
  rw [State.bank_setBank, State.bank_setBank]
  fin_cases b <;> simp <;> omega

/-- A flush does not raise the bound. -/
theorem State.work_flush_le (s : State) (p : Port) : (s.flush p).work ≤ s.work := by
  have hc : ∀ t : State, (t.closeStream p).work ≤ t.work := by
    intro t
    unfold State.closeStream
    split
    · exact Nat.le_refl _
    · refine State.work_mono (fun q => ?_) (fun b => ?_) (fun h => h)
      · simp only [State.port_modBank, State.port_modPort]
        split
        · rename_i e; subst e; exact Nat.le_refl _
        · exact Nat.le_refl _
      · rw [State.bank_modBank]
        split
        · rename_i e; subst e; exact Nat.le_refl _
        · exact Nat.le_refl _
  have hf : ∀ k : Bank, (k.flush p).work ≤ k.work := by
    intro k
    have h1 := k.work_setCandidate_none_le p
    have h2 : ((k.flush p).writeSlot).work = k.writeSlot.work := by
      show (k.writeSlot.flush p).work = _
      cases k.writeSlot with
      | none => rfl
      | busy st op => cases st <;> rfl
    have h3 : (k.flush p).candidate = (k.setCandidate p none).candidate := rfl
    simp only [Bank.work, h2, h3] at h1 ⊢
    exact h1
  have hm : ∀ (t : State) (b : BankId), (t.modBank b fun k => k.flush p).work ≤ t.work := by
    intro t b
    have h1 := t.work_setBank b ((t.bank b).flush p)
    have h2 := hf (t.bank b)
    simp only [State.modBank]
    omega
  have hw : ∀ t : State, (t.withdrawStore p).work ≤ t.work := by
    intro t
    unfold State.withdrawStore
    split
    · refine State.work_mono (fun q => Nat.le_refl _) (fun b => Nat.le_refl _) ?_
      simp only [State.writeDue, Bool.false_or, Bool.and_eq_true, Bool.or_eq_true]
      exact fun h => ⟨h.1, Or.inr h.2⟩
    · exact Nat.le_refl _
  unfold State.flush
  refine le_trans (hc _) (le_trans (hw _) (le_trans ?_ (le_trans (hm _ 1) (hm _ 0))))
  exact State.work_modPort_le _ p _ (Nat.zero_le _)

/-- A pulse start does not raise the bound. -/
theorem State.work_pulseStart_le (s : State) (p : Port) (c : Option Cause) : (s.pulseStart p c).work ≤ s.work := by
  have hc : ∀ t : State, (t.cutTransaction p).work ≤ t.work := by
    intro t
    unfold State.cutTransaction
    split
    · exact Nat.le_refl _
    · split
      · exact le_trans (State.work_modPort_le _ p _ (Nat.le_refl _)) (State.work_modPort_le _ p _ (Nat.le_refl _))
      · exact Nat.le_refl _
  exact le_trans (State.work_modPort_le _ p _ (Nat.le_refl _)) (le_trans (hc _) (s.work_flush_le p))

/-- A region table entry replaced leaves the bound as it was. -/
@[simp] theorem State.work_setRegion (s : State) (n : RegionId) (e : RegionEntry) : (s.setRegion n e).work = s.work := rfl

/-- An event raised does not raise the bound. -/
theorem State.work_raise_le (s : State) (p : Port) (e : Event) : (s.raise p e).work ≤ s.work :=
  s.work_modPort_le p _ (Nat.le_refl _)

/-- A window bound does not raise the bound. -/
theorem State.work_setWindow_le (s : State) (p : Port) (w : Fin 4) (r : Option RegionId) :
    (s.setWindow p w r).work ≤ s.work :=
  s.work_modPort_le p _ (Nat.le_refl _)

/-- CONFIG_EDITs raised do not raise the bound. -/
theorem State.work_raiseConfigEdits_le (levels : Vector Level 4) (ps : List Port) :
    ∀ s : State, (s.raiseConfigEdits levels ps).work ≤ s.work := by
  induction ps with
  | nil => exact fun s => Nat.le_refl _
  | cons p rest ih =>
    intro s
    unfold State.raiseConfigEdits
    refine le_trans (ih _) ?_
    split
    · exact Nat.le_refl _
    · exact s.work_raise_le p _

/-! ## The bound falls at every step due -/

/-- An edit made does not raise the bound. -/
theorem State.work_edit_le (s t : State) (r : Request)
    (h : s.defineRegion r = some t ∨ s.clearRegion r = some t ∨ s.setAccess r = some t ∨ s.bindView r = some t
      ∨ s.lockRegion r = some t ∨ s.setBoot r = some t ∨ s.setPortSettings r = some t ∨ s.flushPort r = some t) :
    t.work ≤ s.work := by
  rcases h with h | h | h | h | h | h | h | h
  · unfold State.defineRegion at h
    split at h
    · cases h
    · dsimp only at h
      split at h
      · cases h; exact Nat.le_refl _
      · cases h
  · unfold State.clearRegion at h
    split at h
    · cases h
    · split at h
      · split at h
        · cases h; exact Nat.le_refl _
        · cases h
      · cases h
  · unfold State.setAccess at h
    split at h
    · split at h
      · cases h
      · split at h
        · cases h; exact Nat.le_refl _
        · split at h
          · cases h; exact State.work_raise_le _ _ _
          · cases h
    · cases h
  · unfold State.bindView at h
    split at h
    · split at h
      · cases h
      · split at h
        · cases h
        · split at h
          · cases h; exact Nat.le_refl _
          · cases h; exact le_trans (State.work_raise_le _ _ _) (State.work_setWindow_le _ _ _ _)
    · cases h
  · unfold State.lockRegion at h
    split at h
    · cases h
    · split at h
      · cases h
      · cases h; exact Nat.le_refl _
      · cases h; exact State.work_raiseConfigEdits_le _ _ _
  · unfold State.setBoot at h
    split at h
    · split at h
      · split at h
        · cases h
        · cases h
          unfold State.enableBoot
          have hx : ∀ (u : State) (p : Port) (b : StoredBoot), (((u.modPort p fun x =>
              { x with boot := b, trial := none, attempts := 0 }).bindBoot p b.activeRegion
              b.alternateRegion).raise p .configEdit).work ≤ u.work := fun u p b =>
            le_trans (State.work_raise_le _ _ _) (le_trans (State.work_setWindow_le _ _ _ _)
              (le_trans (State.work_setWindow_le _ _ _ _) (State.work_modPort_le _ _ _ (Nat.le_refl _))))
          dsimp only
          split
          · exact le_trans (State.work_modPort_le _ _ _ (Nat.le_refl _)) (hx _ _ _)
          · exact le_trans (State.work_modPort_le _ _ _ (Nat.le_refl _)) (hx _ _ _)
      · cases h; exact State.work_modPort_le _ _ _ (Nat.le_refl _)
    · cases h
  · unfold State.setPortSettings at h
    split at h
    · cases h; exact State.work_modPort_le _ _ _ (Nat.le_refl _)
    · cases h
  · unfold State.flushPort at h
    split at h
    · cases h
    · split at h
      · cases h
      · cases h; exact State.work_flush_le _ _

/-- A presentation lowers the bound. -/
theorem State.work_present_lt (s : State) (p : Port) (h : (s.port p).presentable = true) :
    (s.present p).work < s.work := by
  unfold PortState.presentable at h
  unfold State.present
  cases hc : (s.port p).current with
  | some c => simp [hc] at h
  | none =>
    cases hq : (s.port p).queue with
    | nil => simp [hq] at h
    | cons q rest =>
      simp only
      set u : State := s.modPort p fun x => { x with queue := rest, current := some q.toCurrent } with hu
      have h1 : u.work + 4 = s.work := by
        have hd : u.writeDue = s.writeDue := rfl
        have hb : ∀ b, u.bank b = s.bank b := fun _ => rfl
        have hp : ∀ k, u.port k = if k = p then { s.port p with queue := rest, current := some q.toCurrent }
            else s.port k := fun k => by rw [hu, State.port_modPort]
        simp only [State.work, hd, hb, hp, allPorts, List.map_cons, List.map_nil, List.sum_cons, List.sum_nil]
        revert hq
        fin_cases p <;> intro hq <;> simp <;> simp at hq <;> rw [hq] <;> simp <;> omega
      have hbare : ∀ (t : State) (st : Status), (t.completeBare p st).work ≤ t.work := fun t st =>
        t.work_complete_le p st false []
      have hedit : ∀ o : Option State, (∀ t, o = some t → t.work ≤ u.work) → (u.settleEdit p o).work ≤ u.work := by
        intro o ho
        cases o with
        | none => exact hbare _ _
        | some t => exact le_trans (hbare _ _) (ho t rfl)
      have hcarry : ∀ a : Admission, (u.carryOut p a).work ≤ u.work + 3 := by
        intro a
        cases a with
        | refused st => exact le_trans (hbare _ _) (Nat.le_add_right _ _)
        | joins b e r v =>
          simp only [State.carryOut, State.join, State.modBank]
          have hx := State.work_modPort_le u p (fun x =>
            { x with current := x.current.map fun c => { c with range := r, verify := v } }) (Nat.le_refl _)
          have hy := State.work_setBank (u.modPort p fun x =>
            { x with current := x.current.map fun c => { c with range := r, verify := v } }) b
            (((u.modPort p fun x =>
              { x with current := x.current.map fun c => { c with range := r, verify := v } }).bank b).setCandidate p
                (some e))
          have hz := ((u.modPort p fun x =>
            { x with current := x.current.map fun c => { c with range := r, verify := v } }).bank b).work_setCandidate_le
              p (some e)
          omega
      have hkind : (u.examineKind p q.request).work ≤ u.work + 3 := by
        unfold State.examineKind
        split
        · exact hcarry _
        · exact hcarry _
        · exact hcarry _
        · exact hcarry _
        · exact hcarry _
        · exact hcarry _
        · exact le_trans (hedit _ fun t e => u.work_edit_le t q.request (by simp [e])) (Nat.le_add_right _ _)
        · exact le_trans (hedit _ fun t e => u.work_edit_le t q.request (by simp [e])) (Nat.le_add_right _ _)
        · exact le_trans (hedit _ fun t e => u.work_edit_le t q.request (by simp [e])) (Nat.le_add_right _ _)
        · exact le_trans (hedit _ fun t e => u.work_edit_le t q.request (by simp [e])) (Nat.le_add_right _ _)
        · exact le_trans (hedit _ fun t e => u.work_edit_le t q.request (by simp [e])) (Nat.le_add_right _ _)
        · exact le_trans (hedit _ fun t e => u.work_edit_le t q.request (by simp [e])) (Nat.le_add_right _ _)
        · exact le_trans (hedit _ fun t e => u.work_edit_le t q.request (by simp [e])) (Nat.le_add_right _ _)
        · unfold State.presentReset
          split
          · exact le_trans (hbare _ _) (Nat.le_add_right _ _)
          · refine le_trans (State.work_pulseStart_le _ _ _) (le_trans ?_ (Nat.le_add_right _ 3))
            split
            · exact le_trans (State.work_modPort_le _ _ _ (Nat.le_refl _)) (hbare _ _)
            · exact hbare _ _
        · exact le_trans (hedit _ fun t e => u.work_edit_le t q.request (by simp [e])) (Nat.le_add_right _ _)
        · have : ∀ c : Bool, (if c = true then 1 else 0) ≤ 1 := by intro c; split <;> omega
          have hx := this u.presentStore.writeDue
          have hb : ∀ b, u.presentStore.bank b = u.bank b := fun _ => rfl
          have hp : ∀ k, u.presentStore.port k = u.port k := fun _ => rfl
          simp only [State.work, hb, hp]
          omega
      unfold State.presentQueued
      simp only [← hu]
      split
      · have := hbare u .expired; omega
      · split
        · have := hbare u .notAdmin; omega
        · omega

/-- Marks leave the bound as it was. -/
theorem State.work_markDisturbed_le (b : BankId) (sector : Nat) (ps : List Port) :
    ∀ s : State, (s.markDisturbed b sector ps).work ≤ s.work := by
  induction ps with
  | nil => exact fun s => Nat.le_refl _
  | cons p rest ih =>
    intro s
    unfold State.markDisturbed
    refine le_trans (ih _) ?_
    split
    · exact Nat.le_refl _
    · split
      · exact s.work_modPort_le p _ (Nat.le_refl _)
      · exact Nat.le_refl _

/-- The step due at a bank lowers the bound. -/
theorem State.work_bankStep_lt (s t : State) (b : BankId) (h : s.bankStep b = some t) : t.work < s.work := by
  have hset : ∀ k : Bank, k.work < (s.bank b).work → (s.setBank b k).work < s.work := by
    intro k hk
    have := s.work_setBank b k
    omega
  unfold State.bankStep at h
  split at h
  · rename_i op hop
    cases h
    refine lt_of_le_of_lt (State.work_markDisturbed_le _ _ _ _) (hset _ ?_)
    unfold Bank.startDue at hop
    have hc : ((s.bank b).start op).candidate = (s.bank b).candidate := by
      unfold Bank.start; split <;> rfl
    have hw : ((s.bank b).start op).writeSlot.work ≤ 1 := by
      unfold Bank.start; split <;> simp [WriteSlot.work]
    split at hop
    · rename_i w hslot
      have e : (s.bank b).writeSlot.work = 2 := by rw [hslot]; rfl
      simp only [Bank.work, hc, e]
      omega
    · cases hop
  · split at h
    · rename_i p c hg
      cases h
      obtain ⟨h1, h2⟩ := Bank.nextGrant_sound _ p c hg
      have hk := (s.bank b).work_setCandidate_none_lt p c h1
      have htake : (s.takeGrant b p).work + 3 ≤ s.work := by
        unfold State.takeGrant State.stopDeadline
        refine le_trans (Nat.add_le_add_right (State.work_modPort_le _ p _ (Nat.le_refl _)) 3) ?_
        have := s.work_setBank b { (s.bank b).setCandidate p none with pointer := p + 1 }
        have e : ({ (s.bank b).setCandidate p none with pointer := p + 1 } : Bank).work
            = ((s.bank b).setCandidate p none).work := rfl
        dsimp only at this e
        simp only [State.modBank]
        omega
      have hbare : ∀ (t : State) (st : Status), (t.completeBare p st).work ≤ t.work := fun t st =>
        t.work_complete_le p st false []
      have henter : ∀ (u : State) op d, (u.enterReadSlot b op d).work ≤ u.work := by
        intro u op d
        have := u.work_setBank b { u.bank b with readSlot := some op, digest := d }
        have e : ({ u.bank b with readSlot := some op, digest := d } : Bank).work = (u.bank b).work := rfl
        dsimp only at this e
        simp only [State.enterReadSlot, State.modBank]
        omega
      have hwrite : ∀ target chunk,
          ((s.takeGrant b p).grantWrite b p target chunk).work ≤ (s.takeGrant b p).work + 2 := by
        intro target chunk
        unfold State.grantWrite
        split
        · exact le_trans (hbare _ _) (Nat.le_add_right _ _)
        · have hx := (s.takeGrant b p).work_setBank b
            { (s.takeGrant b p).bank b with writeSlot := .busy .starting ⟨.port p, target, chunk⟩ }
          have hy : ({ (s.takeGrant b p).bank b with writeSlot := .busy .starting ⟨.port p, target, chunk⟩ } : Bank).work
              ≤ ((s.takeGrant b p).bank b).work + 2 := by
            simp only [Bank.work, WriteSlot.work]
            have : ({ (s.takeGrant b p).bank b with writeSlot := .busy .starting ⟨.port p, target, chunk⟩ } : Bank).candidate
              = ((s.takeGrant b p).bank b).candidate := rfl
            rw [this]
            omega
          dsimp only at hx hy
          simp only [State.modBank]
          omega
      unfold State.grant
      dsimp only
      split
      · refine lt_of_le_of_lt (henter _ _ _) ?_; omega
      · unfold State.grantVerify
        split
        · omega
        · split
          · have := hbare (s.takeGrant b p) .disturbed; omega
          · refine lt_of_le_of_lt (henter _ _ _) ?_; omega
      · refine lt_of_le_of_lt (hwrite _ _) ?_; omega
      · refine lt_of_le_of_lt (hwrite _ _) ?_; omega
    · split at h
      · rename_i hs
        cases h
        refine hset _ ?_
        simp only [Bank.suspendDue, Bank.suspendable, Bool.and_eq_true] at hs
        cases hws : (s.bank b).writeSlot with
        | none => simp [hws] at hs
        | busy st op =>
          cases st <;> simp [hws] at hs
          have hc : (Bank.requestSuspend (s.bank b)).candidate = (s.bank b).candidate := by
            unfold Bank.requestSuspend; split <;> rfl
          have e1 : (Bank.requestSuspend (s.bank b)).writeSlot.work = 0 := by
            simp only [Bank.requestSuspend, hws, WriteSlot.work]
          have e2 : (s.bank b).writeSlot.work = 1 := by rw [hws]; rfl
          simp only [Bank.work, hc, e1, e2]
          omega
      · split at h
        · rename_i hs
          cases h
          refine hset _ ?_
          simp only [Bank.resumeDue] at hs
          cases hws : (s.bank b).writeSlot with
          | none => simp [hws] at hs
          | busy st op =>
            cases st <;> simp [hws] at hs
            have hc : (Bank.resume (s.bank b)).candidate = (s.bank b).candidate := by
              unfold Bank.resume; split <;> rfl
            have e1 : (Bank.resume (s.bank b)).writeSlot.work = 1 := by simp only [Bank.resume, hws, WriteSlot.work]
            have e2 : (s.bank b).writeSlot.work = 2 := by rw [hws]; rfl
            simp only [Bank.work, hc, e1, e2]
            omega
        · cases h

/-- Every step due inside an event lowers the bound. -/
theorem State.work_internalStep_lt (s t : State) (h : s.internalStep = some t) : t.work < s.work := by
  unfold State.internalStep at h
  split at h
  · rename_i p hp
    cases h
    have hq := List.find?_some (p := fun p => (s.port p).presentable) hp
    exact s.work_present_lt p hq
  · split at h
    · rename_i hw
      cases h
      have e : s.beginWrite.writeDue = false := rfl
      have hb : ∀ b, s.beginWrite.bank b = s.bank b := fun _ => rfl
      have hp : ∀ k, s.beginWrite.port k = s.port k := fun _ => rfl
      simp only [State.work, e, hb, hp, hw, if_true, Bool.false_eq_true, if_false]
      omega
    · split at h
      · rename_i hb
        cases h
        exact s.work_bankStep_lt _ 0 hb
      · exact s.work_bankStep_lt _ 1 h

/-! ## What `settle` and `finish` leave -/

/-- With fuel of at least the bound, nothing is left due. -/
theorem State.settle_internalStep (fuel : Nat) : ∀ s : State, s.work ≤ fuel → (s.settle fuel).internalStep = none := by
  induction fuel with
  | zero =>
    intro s h
    cases hi : s.internalStep with
    | none => exact hi
    | some t => have := s.work_internalStep_lt t hi; omega
  | succ fuel ih =>
    intro s h
    unfold State.settle
    split
    · assumption
    · rename_i t ht
      have := s.work_internalStep_lt t ht
      exact ih t (by omega)

/-- More fuel than the bound changes nothing. -/
theorem State.settle_more (fuel : Nat) : ∀ s : State, s.work ≤ fuel → s.settle (fuel + 1) = s.settle fuel := by
  induction fuel with
  | zero =>
    intro s h
    cases hi : s.internalStep with
    | none => simp [State.settle, hi]
    | some t => have := s.work_internalStep_lt t hi; omega
  | succ fuel ih =>
    intro s h
    cases hi : s.internalStep with
    | none => simp [State.settle, hi]
    | some t =>
      have := s.work_internalStep_lt t hi
      rw [State.settle, State.settle]
      simp only [hi]
      exact ih t (by omega)

/-- Fuel of at least the bound is as good as the bound. -/
theorem State.settle_enough (s : State) (fuel : Nat) (h : s.work ≤ fuel) : s.settle fuel = s.settle s.work := by
  induction fuel with
  | zero => rw [Nat.le_zero.mp h]
  | succ fuel ih =>
    rcases Nat.lt_or_ge fuel s.work with hl | hl
    · have : fuel + 1 = s.work := by omega
      rw [this]
    · rw [State.settle_more fuel s hl, ih hl]

/-- Every step due inside an event, by what it is. -/
theorem State.internalStep_cases {s t : State} (h : s.internalStep = some t) :
    (∃ p, (s.port p).presentable = true ∧ t = s.present p) ∨ (s.writeDue = true ∧ t = s.beginWrite)
    ∨ ∃ b, (∃ op, (s.bank b).startDue = some op ∧ t = s.startWrite b op)
      ∨ ((s.bank b).startDue = none ∧ ∃ p c, (s.bank b).nextGrant = some (p, c) ∧ t = s.grant b p c)
      ∨ ((s.bank b).startDue = none ∧ (s.bank b).nextGrant = none ∧ (s.bank b).suspendDue = true
          ∧ t = s.modBank b Bank.requestSuspend)
      ∨ ((s.bank b).startDue = none ∧ (s.bank b).nextGrant = none ∧ (s.bank b).suspendDue = false
          ∧ (s.bank b).resumeDue = true ∧ t = s.modBank b Bank.resume) := by
  have hbank : ∀ b, s.bankStep b = some t →
      (∃ op, (s.bank b).startDue = some op ∧ t = s.startWrite b op)
      ∨ ((s.bank b).startDue = none ∧ ∃ p c, (s.bank b).nextGrant = some (p, c) ∧ t = s.grant b p c)
      ∨ ((s.bank b).startDue = none ∧ (s.bank b).nextGrant = none ∧ (s.bank b).suspendDue = true
          ∧ t = s.modBank b Bank.requestSuspend)
      ∨ ((s.bank b).startDue = none ∧ (s.bank b).nextGrant = none ∧ (s.bank b).suspendDue = false
          ∧ (s.bank b).resumeDue = true ∧ t = s.modBank b Bank.resume) := by
    intro b hb
    unfold State.bankStep at hb
    split at hb
    · rename_i op hop
      cases hb
      exact Or.inl ⟨op, hop, rfl⟩
    · rename_i h1
      split at hb
      · rename_i p c hg
        cases hb
        exact Or.inr (Or.inl ⟨h1, p, c, hg, rfl⟩)
      · rename_i h2
        split at hb
        · rename_i h3
          cases hb
          exact Or.inr (Or.inr (Or.inl ⟨h1, h2, h3, rfl⟩))
        · rename_i h3
          split at hb
          · rename_i h4
            cases hb
            exact Or.inr (Or.inr (Or.inr ⟨h1, h2, by simpa using h3, h4, rfl⟩))
          · cases hb
  unfold State.internalStep at h
  split at h
  · rename_i p hp
    cases h
    exact Or.inl ⟨p, List.find?_some (p := fun p => (s.port p).presentable) hp, rfl⟩
  · split at h
    · rename_i hw
      cases h
      exact Or.inr (Or.inl ⟨hw, rfl⟩)
    · split at h
      · rename_i hb
        cases h
        exact Or.inr (Or.inr ⟨0, hbank 0 hb⟩)
      · exact Or.inr (Or.inr ⟨1, hbank 1 h⟩)

/-- What every step due inside an event keeps, and STLED's refresh keeps, the end of an event keeps. -/
theorem State.finish_induction (P : State → Prop) (step : ∀ s t, P s → s.internalStep = some t → P t)
    (led : ∀ s, P s → P s.refreshLed) (s : State) (h : P s) : P s.finish := by
  have hs : ∀ fuel u, P u → P (u.settle fuel) := by
    intro fuel
    induction fuel with
    | zero => exact fun u hu => hu
    | succ fuel ih =>
      intro u hu
      unfold State.settle
      split
      · exact hu
      · rename_i t ht
        exact ih t (step u t hu ht)
  exact led _ (hs _ _ h)

end Sys2Proof.Machine
end

