-- ==== Sys2Proof/Laws/Transactions.lean ====
section
/-! SUPPORT. What the operations of a transaction do, whole: bytes clocked with no stream open, the kind a frame gives, and
the end of a frame that is taken, only clocked, or no event. -/

namespace Sys2Proof.Machine

open Sys2Proof

/-- The rest of an answer and filler, as they are clocked out (R145). -/
theorem answerBytes_eq (answer : List Byte) (n : Nat) :
    answer.take n ++ List.replicate (n - (answer.take n).length) Config.filler = answerBytes answer n := by
  apply List.ext_getElem?
  intro i
  simp only [answerBytes, List.getElem?_append, List.getElem?_take, List.getElem?_replicate, List.length_take]
  grind

/-- n bytes of an answer and then m more are n + m bytes of it. -/
theorem answerBytes_append (answer : List Byte) (n m : Nat) :
    answerBytes answer n ++ answerBytes (answer.drop n) m = answerBytes answer (n + m) := by
  apply List.ext_getElem?
  intro i
  simp only [answerBytes, List.getElem?_append, List.getElem?_take, List.getElem?_replicate, List.getElem?_drop,
    List.length_take, List.length_append, List.length_replicate, List.length_drop]
  by_cases h1 : i < n <;> by_cases h2 : i < answer.length <;> by_cases h3 : i < n + m <;> grind

/-- n bytes of an answer are n bytes. -/
@[simp] theorem answerBytes_length (answer : List Byte) (n : Nat) : (answerBytes answer n).length = n := by
  simp only [answerBytes, List.length_take, List.length_append, List.length_replicate]
  omega

/-- R145: bytes clocked in a transaction that sends no stream data, whole. -/
theorem State.clockOut_of_no_data (s : State) (p : Port) (n : Nat) (t : Transaction)
    (h : (s.port p).transaction = some t)
    (hs : (s.port p).stream = none ∨ ∀ d, t.decision = some d → d.effect ≠ .stream) :
    s.clockOut p n
      = s.setPort p { s.port p with
          transaction := some { t with taken := t.taken + n }
          sdo := (s.port p).sdo ++ t.lastBytes n } := by
  by_cases hq : (t.ignored || t.cut || t.silenced) = true
  · simp only [State.clockOut, h, Transaction.answering, Transaction.lastBytes, hq, if_true, State.send, State.modPort,
      List.length_replicate]
  · simp only [State.clockOut, h, Transaction.answering, Transaction.lastBytes, hq]
    cases hd : t.decision with
    | none => simp [State.send, State.modPort, hd]
    | some d =>
      have hne : (s.port p).stream = none ∨ d.effect ≠ .stream := hs.imp id fun f => f d hd
      simp only [Bool.false_eq_true, if_false]
      split
      · rename_i he hst
        rcases hne with e | e
        · rw [e] at hst; cases hst
        · exact absurd he e
      · simp only [State.send, State.modPort, answerBytes_eq, answerBytes_length, hd]

/-- R145: bytes clocked in a transaction of a port with no stream open, whole. -/
theorem State.clockOut_of_no_stream (s : State) (p : Port) (n : Nat) (t : Transaction)
    (h : (s.port p).transaction = some t) (hs : (s.port p).stream = none) :
    s.clockOut p n
      = s.setPort p { s.port p with
          transaction := some { t with taken := t.taken + n }
          sdo := (s.port p).sdo ++ t.lastBytes n } :=
  s.clockOut_of_no_data p n t h (Or.inl hs)

/-- The opener of a kind names that kind (R146). -/
@[simp] theorem TransactionKind.ofOpener_opener (k : TransactionKind) : TransactionKind.ofOpener k.opener = some k := by
  cases k <;> rfl

/-- The kind of a frame that begins with the opener of a kind (R145). -/
@[simp] theorem kindOfFrame_opener (k : TransactionKind) (rest : List Byte) :
    kindOfFrame (k.opener :: rest) = some k := by
  simp [kindOfFrame]

/-- A port in a frame takes it whole (R147). -/
theorem State.takesFrame_of_inFrame (s : State) (p : Port) (frame : List Byte) (h : s.inFrame p frame) :
    (s.port p).takesFrame frame = true := by
  obtain ⟨hp, ht⟩ := h
  have hb : (s.sent p).isPrefixOf frame = true := List.isPrefixOf_iff_prefix.2 hp
  simp only [PortState.takesFrame, ht, Option.any_some, Transaction.isFraming, Transaction.isLive, hb, Option.isNone_none,
    Bool.not_false, Bool.and_true]

/-- R145, R147, R150: a frame whose effect is not a stream, taken to its end and decided, whole. -/
theorem State.endFrame_of_inFrame (s : State) (p : Port) (frame : List Byte) (h : s.inFrame p frame) (d : Decision)
    (n : Nat) (hd : d.effect ≠ .stream) : s.endFrame p frame d n = s.framed p frame d.answer d.effect n := by
  have h1 := s.takesFrame_of_inFrame p frame h
  obtain ⟨-, ht⟩ := h
  simp only [State.endFrame, h1, if_true, State.decideFrame, ht, State.takeFrame, State.modPort]
  rw [State.clockOut_of_no_data _ p n _ (by rw [State.port_setPort_self]) (Or.inr (by simpa using hd))]
  simp [Transaction.lastBytes, State.framed]

/-- R147: a frame in a transaction that is ignored, cut or decided is only clocked. -/
theorem State.endFrame_of_not_framing (s : State) (p : Port) (frame : List Byte) (d : Decision) (n : Nat)
    (h : (s.port p).transaction.any Transaction.isFraming = false) :
    s.endFrame p frame d n = s.clockOut p (frame.length + n) := by
  have h1 : (s.port p).takesFrame frame = false := by
    unfold PortState.takesFrame
    cases ht : (s.port p).transaction with
    | none => rfl
    | some t =>
      have : t.isFraming = false := by simpa [ht] using h
      simp [this]
  simp [State.endFrame, State.passFrame, h1, h]

/-- A frame beside an unfinished frame of other bytes is no event (log 21). -/
theorem State.endFrame_of_other_frame (s : State) (p : Port) (frame : List Byte) (d : Decision) (n : Nat)
    (t : Transaction) (ht : (s.port p).transaction = some t) (hf : t.isFraming = true) (hp : ¬ t.frame <+: frame) :
    s.endFrame p frame d n = s := by
  have hb : t.frame.isPrefixOf frame = false := by
    rw [Bool.eq_false_iff]
    exact fun e => hp (List.isPrefixOf_iff_prefix.1 e)
  simp [State.endFrame, State.passFrame, PortState.takesFrame, ht, hf, hb]

/-! ## The last bytes before a deselect or the select-hold limit -/

/-- R147: a transaction that is ignored, cut or decided takes no more bytes of its frame. -/
theorem Transaction.isFraming_eq_false (t : Transaction) (h : t.ignored = true ∨ t.cut = true ∨ t.decision ≠ none) :
    t.isFraming = false := by
  rcases h with h | h | h
  · simp [Transaction.isFraming, Transaction.isLive, h]
  · simp [Transaction.isFraming, Transaction.isLive, h]
  · cases hd : t.decision <;> simp_all [Transaction.isFraming]

/-- R147: a transaction that is neither ignored nor cut nor decided takes the bytes of its frame. -/
theorem Transaction.isFraming_eq_true (t : Transaction) (hi : t.ignored = false) (hc : t.cut = false)
    (hd : t.decision = none) : t.isFraming = true := by
  simp [Transaction.isFraming, Transaction.isLive, hi, hc, hd]

/-- R152: bytes complete the frame of no transaction that takes no frame. -/
@[simp] theorem Transaction.completedBy_of_not_framing (t : Transaction) (bytes : List Byte) (h : t.isFraming = false) :
    t.completedBy bytes = false := by
  simp [Transaction.completedBy, h]

/-- R152: bytes complete a frame exactly where they do not leave it unfinished. -/
@[simp] theorem Transaction.completedBy_of_framing (t : Transaction) (bytes : List Byte) (h : t.isFraming = true) :
    t.completedBy bytes = !frameUnfinished (t.frame ++ bytes) := by
  simp [Transaction.completedBy, h]

/-- R145: the last bytes of a transaction that takes no frame, no stream open, whole. -/
theorem State.takeBytes_of_not_framing (s : State) (p : Port) (t : Transaction) (bytes : List Byte)
    (h : (s.port p).transaction = some t) (hf : t.isFraming = false) (hs : (s.port p).stream = none) :
    s.takeBytes p t bytes
      = s.setPort p { s.port p with
          transaction := some { t with taken := t.taken + bytes.length }
          sdo := (s.port p).sdo ++ t.lastBytes bytes.length } := by
  simp only [State.takeBytes, hf, Bool.false_eq_true, if_false]
  exact s.clockOut_of_no_stream p bytes.length t h hs

/-- R145: the last bytes of a transaction that takes its frame, whole. -/
theorem State.takeBytes_of_framing (s : State) (p : Port) (t : Transaction) (bytes : List Byte)
    (hf : t.isFraming = true) :
    s.takeBytes p t bytes
      = s.setPort p { s.port p with
          transaction := some { t with
            kind := kindOfFrame (t.frame ++ bytes), frame := t.frame ++ bytes
            taken := (t.frame ++ bytes).length, decision := none }
          sdo := (s.port p).sdo ++ List.replicate bytes.length Config.filler } := by
  simp [State.takeBytes, hf, State.takeFrame, State.modPort]

end Sys2Proof.Machine
end

