-- ==== Sys2Proof/Tests/Slice0.lean ====
section
/-! SUPPORT. The model's own tests: ill-formed commands that the check refuses, worked values of the spec, one or two small
steps for each command, and for every statement with hypotheses a concrete state that meets them, clause by clause. -/

namespace Sys2Proof.Tests

open Sys2Proof Sys2Proof.Machine

set_option Elab.async false

/-! ## States to test on -/

/-- A READY part: region 0 one sector at Bank 0, region 1 three sectors at Bank 1, W0 and W1 bound to them. -/
def base : State :=
  { State.reset with
    startUp := .ready
    led := ⟨.off, false⟩
    regions := ((Vector.replicate 16 RegionEntry.unused).set 0
      (.inUse false ⟨0, 1⟩ #v[Level.full, .read, .none, .write])).set 1
      (.inUse false ⟨1024, 3⟩ #v[Level.full, .full, .none, .none])
    ports := Vector.replicate 4 { PortState.reset 0x01 with windows := #v[some 0, some 1, none, none] } }

/-- `base` with a fresh transaction at port p. -/
def started (p : Port) : State :=
  base.modPort p fun x => { x with selected := true, transaction := some (framingTransaction []) }

/-- `base` with a transaction at P0 whose frame has begun. -/
def begun (bytes : List Byte) : State :=
  base.modPort 0 fun x => { x with selected := true, transaction := some (framingTransaction bytes) }

/-- A WRITE_ENABLE transaction with its frame taken, its answer 0xA5, and an effect. -/
def decidedTransaction (effect : Effect) : Transaction :=
  ⟨false, false, false, some .writeEnable, [0x61, 0x20], 2, .running 50, some ⟨[0xA5], effect⟩⟩

/-- `base` with a decided transaction at P0. -/
def decided (effect : Effect) : State :=
  base.modPort 0 fun x => { x with selected := true, transaction := some (decidedTransaction effect) }

/-- A request with payload bytes, and it waiting in a queue. -/
def request (kind : RequestKind) (payload : List Byte) : Request := ⟨kind, 7, 0, 1, payload⟩

/-- A queued request with no deadline. -/
def waiting (r : Request) : Queued := ⟨r, .stopped, false⟩

/-- A state with a request at the head of port p's queue. -/
def heading (s : State) (p : Port) (r : Request) : State := s.modPort p fun x => { x with queue := [waiting r] }

/-- A state with a current request at port p. -/
def running (s : State) (p : Port) (c : Current) : State := s.modPort p fun x => { x with current := some c }

/-- A state whose Bank 0 has a write slot. -/
def writing (s : State) (st : WriteState) (op : WriteOperation) : State :=
  s.modBank 0 fun k => { k with writeSlot := .busy st op }

/-- A state whose P0 has a legal enabled boot record on slots 0 and 1, in a boot state. -/
def supervised (s : State) (st : BootState) : State :=
  s.modPort 0 fun x => { x with boot := { x.boot with enabled := true }, bootState := st }

/-- An erase of sector 0 by P0. -/
def eraseOp : WriteOperation := ⟨.port 0, .sectorErase 0, none⟩

/-- A program of P0 that wraps: two bytes from offset 255 of page 256. -/
def programOp : WriteOperation := ⟨.port 0, .program 256 255 [0x0F, 0xF0], none⟩

/-- A program as a candidate. -/
def programEntry : Candidate := ⟨.program 256 255 [0x0F, 0xF0], none, false⟩

/-! ## Well-formed commands -/

/-- A frame whose payload does not match its payload length. -/
def badFrame : SubmitFrame := ⟨0x01, 0, 0, 1, 2, [0x00], 0⟩

/-- Each check of well-formedness refuses an ill-formed term. -/
theorem test_wf_refuses :
    (Instr.transactionStart ⟨0, [0x61, 0x20]⟩).wf = false ∧ (Instr.transactionStart ⟨0, [0x00]⟩).wf = false
    ∧ (Instr.unknownOpener 0 0x31 0).wf = false ∧ (Instr.unknownOpener 0 0x00 312500).wf = false
    ∧ (Instr.directRead 0 0 312500).wf = false ∧ (Instr.submit 0 badFrame 0).wf = false
    ∧ (Instr.submit 0 { badFrame with payload := [0, 0] } 312500).wf = false
    ∧ (Instr.submit 0 { badFrame with payloadLength := 257 } 0).wf = false
    ∧ (Instr.fetch 0 312500).wf = false ∧ (Instr.readStatus 0 312500).wf = false
    ∧ (Instr.readPeerStatus 0 0 312500).wf = false ∧ (Instr.writeEnable 0 0 312500).wf = false
    ∧ (Instr.writeDisable 0 0 312500).wf = false ∧ (Instr.clearEvents 0 0 0 312500).wf = false
    ∧ (Instr.setEventEnables 0 0 0 312500).wf = false ∧ (Instr.clearCauses 0 0 0 312500).wf = false
    ∧ (Instr.confirmBoot 0 0 312500).wf = false ∧ (Instr.service 0 0 0 312500).wf = false
    ∧ (Instr.restart 0 0 312500).wf = false ∧ (Instr.deadlineExpiry 0 (.queued 8)).wf = false := by
  decide +kernel

/-- A DESELECT and a SELECT_HOLD_LIMIT are refused from the bound of R89 on, and let through below it. -/
theorem test_wf_of_last_bytes :
    (Instr.deselect 0 (List.replicate 312500 0)).wf = false ∧ (Instr.deselect 0 (List.replicate 312499 0)).wf = true
    ∧ (Instr.selectHoldLimit 0 (List.replicate 312500 0)).wf = false
    ∧ (Instr.selectHoldLimit 0 (List.replicate 312499 0)).wf = true := by
  simp only [Instr.wf, clockedWf, List.length_replicate]
  decide

/-- Well-formed terms at the bounds are let through. -/
theorem test_wf_accepts :
    (Instr.transactionStart ⟨0, []⟩).wf = true ∧ (Instr.transactionStart ⟨0, [0x61]⟩).wf = true
    ∧ (Instr.transactionStart ⟨0, [0x52, 1, 0, 0, 0, 0, 0, 1, 1, 0] ++ List.replicate 256 0⟩).wf = true
    ∧ (Instr.unknownOpener 0 0x00 312499).wf = true ∧ (Instr.submit 0 { badFrame with payload := [0, 0] } 0).wf = true
    ∧ (Instr.submit 0 { badFrame with payloadLength := 257, payload := [] } 0).wf = true
    ∧ (Instr.deadlineExpiry 0 (.queued 7)).wf = true := by
  decide +kernel

/-! ## Worked values of the spec -/

/-- Table 9-3, and the check byte of a whole READ frame by its own steps. -/
theorem test_crc8_values : crc8 [0x61] = 0x20 ∧ crc8 [0x62] = 0x29 ∧ crc8 [0x72, 0x96] = 0x63 := by decide +kernel

/-- R96: the digest register after one to five bytes of 0xFF. -/
theorem test_crc32_values :
    crc32Bytes crc32Start [0xFF] = 0x00FFFFFF ∧ crc32Bytes crc32Start [0xFF, 0xFF] = 0x0000FFFF
    ∧ crc32Bytes crc32Start [0xFF, 0xFF, 0xFF] = 0x000000FF
    ∧ crc32Bytes crc32Start [0xFF, 0xFF, 0xFF, 0xFF] = 0x00000000
    ∧ crc32Bytes crc32Start [0xFF, 0xFF, 0xFF, 0xFF, 0xFF] = 0x2D02EF8D := by
  decide +kernel

/-- Table 1-2: the three programs wrap or not as it says. -/
theorem test_wraps : wraps 0 256 = false ∧ wraps 240 16 = false ∧ wraps 250 10 = true := by decide

/-- Table 2-3: region 6 of 16 sectors from sector 1280, bound to W1. -/
theorem test_translation_examples :
    let s := (base.setRegion 6 (.inUse false ⟨1280, 16⟩ #v[.read, .none, .none, .none])).setWindow 0 1 (some 6)
    s.access 0 0x400000 .read (endsInRegion 1) = .ok 6 ⟨1280, 16⟩ 0
    ∧ s.access 0 0x40FFFF .read (endsInRegion 1) = .ok 6 ⟨1280, 16⟩ 0xFFFF
    ∧ s.access 0 0x410000 .read (endsInRegion 1) = .failed .range
    ∧ s.access 0 0x7FFFFF .read (endsInRegion 1) = .failed .range
    ∧ SectorRange.base ⟨1280, 16⟩ = 0x500000 := by
  decide +kernel

/-! ## One step -/

/-- The state after a command (no command faults or refuses). -/
def after (c : Instr) (s : State) : State :=
  match exec c s with
  | .next t => t
  | .fault f => nomatch f
  | .refused _ => s

/-- The state after a step. -/
def stepped (s : State) : State :=
  match step s with
  | .next t => t
  | .fault f => nomatch f
  | .refused _ => s

/-- A command at the front of the queue is run on the rest. -/
theorem test_step_front :
    stepped { base with pending := [.transactionStart ⟨0, []⟩, .fetch 0 0] } = { (started 0) with pending := [.fetch 0 0] } := by
  decide +kernel

/-- With nothing waiting the part idles. -/
theorem test_step_idle : stepped base = base := by decide +kernel

/-- No word of the opcode table spells a command. -/
theorem test_no_word : decodeTableWord 8 0x31 = none ∧ State.withFetchWord base 8 0x31 = base := by decide +kernel

/-- POWER_ON_RESET, DEVICE_RESET and LOSS_OF_POWER in the middle of a program. -/
theorem test_resets :
    (after .powerOnReset base).startUp = .resetTaken ∧ ((after .powerOnReset base).port 1).causes = 0x01
    ∧ ((after .deviceReset base).port 1).causes = 0x03 ∧ (after .deviceReset base).led = ⟨.steady, true⟩
    ∧ (after .lossOfPower base).startUp = .unpowered
    ∧ after .deviceReset (after .lossOfPower base) = after .lossOfPower base
    ∧ (after .deviceReset (writing base .programming programOp)).freeCount = 256 := by
  decide +kernel

/-- START_UP_BEGIN, LOAD_COMPLETE and the four releases bring a part as delivered up with the default tables. -/
theorem test_start_up :
    let s := after .loadComplete (after (.startUpBegin true false) State.reset)
    s.admin = 2 ∧ s.startUp = .ready ∧ (s.port 2).sticky = 0x40 ∧ (s.port 0).sticky = 0
    ∧ s.region 0 = .inUse false ⟨0, 1024⟩ #v[.read, .read, .full, .read] ∧ s.led.display = .off
    ∧ s.mrstAsserted 0 = true ∧ (after (.pulseRelease 0) s).mrstAsserted 0 = false
    ∧ (after (.pulseRelease 0) s).mrstAsserted 1 = true := by
  decide +kernel

/-- TRANSACTION_START at a port that takes transactions and at one in a pulse; UNKNOWN_OPENER. -/
theorem test_transaction_start :
    after (.transactionStart ⟨0, []⟩) base = started 0
    ∧ ((after (.transactionStart ⟨0, [0x61]⟩) base).port 0).transaction
      = some ⟨false, false, false, some .writeEnable, [0x61], 1, .running 50, none⟩
    ∧ ((after (.writeEnable 0 0x20 1) (after (.transactionStart ⟨0, [0x61]⟩) base)).port 0).sdo = [0xFF, 0xFF, 0xA5]
    ∧ after (.writeDisable 0 0x29 1) (begun [0x61]) = begun [0x61]
    ∧ ((after (.transactionStart ⟨0, []⟩) (base.pulseStart 0 none)).port 0).transaction = some (ignoredTransaction 0)
    ∧ ((after (.unknownOpener 0 0x00 2) (started 0)).port 0).sdo = [0xFF, 0xA3, 0xFF]
    ∧ after (.unknownOpener 0 0x31 2) (started 0) = started 0 := by
  decide +kernel

/-- R173: a select that goes active without power drives data-out once there is power, and begins no transaction (log 13,
log 19). -/
theorem test_select_without_power :
    let s := after (.transactionStart ⟨0, [0x53]⟩) (after .lossOfPower base)
    s.sdoDriven 0 = false ∧ (after .powerOnReset s).sdoDriven 0 = true ∧ (after .powerOnReset s).sdoDriven 1 = false
    ∧ ((after .powerOnReset s).port 0).transaction = none
    ∧ (after .powerOnReset (after (.deselect 0 []) s)).sdoDriven 0 = false := by
  decide +kernel

/-- DESELECT before a frame is complete, and SELECT_HOLD_LIMIT. -/
theorem test_deselect :
    ((after (.deselect 0 [0x52, 1, 2]) (started 0)).port 0).sticky = 0x02
    ∧ ((after (.deselect 0 []) (started 0)).port 0).sticky = 0x02 ∧ after (.deselect 0 [0x20]) (begun [0x61]) = begun [0x61]
    ∧ after (.deselect 0 [0x53]) (started 0) = started 0
    ∧ ((after (.selectHoldLimit 0 [0]) (decided .setLatch)).port 0).sticky = 0x02
    ∧ ((after (.deselect 0 []) (after (.selectHoldLimit 0 [0]) (decided .setLatch))).port 0).latch = false
    ∧ ((after (.selectHoldLimit 0 [1, 2]) (begun [0x52])).port 0).transaction
      = some ⟨false, true, false, some .submit, [0x52, 1, 2], 3, .stopped, none⟩
    ∧ after (.selectHoldLimit 0 [0x20]) (begun [0x61]) = begun [0x61]
    ∧ ((after (.deselect 0 []) (decided .setLatch)).port 0).latch = true
    ∧ (after (.deselect 0 []) (decided .setLatch)).sdoDriven 0 = false ∧ (decided .setLatch).sdoDriven 0 = true := by
  decide +kernel

/-- DIRECT_READ: GO with its data and the wrap at the region's end, NOT_READY with a suspend, DENIED, RANGE. -/
theorem test_direct_read :
    ((after (.directRead 0 0x000FFF 5) ({ started 0 with array := [(0, 0x11), (4095, 0x22)] })).port 0).sdo
      = [0xFF, 0xFF, 0xFF, 0xFF, 0xFF, 0xFF, 0xD0, 0x22, 0x11]
    ∧ ((after (.directRead 0 0 3) (writing (started 0) .erasing eraseOp)).port 0).sdo.drop 6 = [0xD1]
    ∧ ((after (.directRead 0 0 3) (writing (started 0) .erasing eraseOp)).bank 0).writeSlot = .busy .suspending eraseOp
    ∧ ((after (.directRead 2 0 3) (started 2)).port 2).sdo.drop 6 = [0xD2]
    ∧ ((after (.directRead 0 0x1000 3) (started 0)).port 0).sdo.drop 6 = [0xD3] := by
  decide +kernel

/-- A READ of one byte at address 0, with its check byte. -/
def readFrame : SubmitFrame := ⟨0x01, 7, 0, 1, 0, [], crc8 [0x52, 0x01, 7, 0, 0, 0, 0, 1, 0, 0]⟩

/-- SUBMIT of a READ: ACCEPTED, and at the deselect it is presented and granted; a wrong check byte is BAD_CHECK. -/
theorem test_submit :
    let s := after (.submit 0 readFrame 1) (started 0)
    let t := after (.deselect 0 []) s
    (s.port 0).sdo.drop 11 = [0xA0] ∧ (s.port 0).queue = []
    ∧ (t.bank 0).readSlot = some ⟨.port 0, .read, 0, 1⟩ ∧ (t.bank 0).pointer = 1
    ∧ ((after (.submit 0 { readFrame with check := 0 } 1) (started 0)).port 0).sdo.drop 11 = [0xA2] := by
  decide +kernel

/-- FETCH of a record clocked out whole and in part, and of the empty record. -/
theorem test_fetch :
    let s := (started 0).modPort 0 fun x => { x with completions := [⟨9, .read, .done, false, [0xAB]⟩] }
    ((after (.fetch 0 7) s).port 0).sdo = [0xFF, 9, 1, 0, 0, 1, 0xAB, 0xFF]
    ∧ ((after (.deselect 0 []) (after (.fetch 0 6) s)).port 0).completions = []
    ∧ ((after (.deselect 0 []) (after (.fetch 0 5) s)).port 0).completions = [⟨9, .read, .done, false, [0xAB]⟩]
    ∧ ((after (.fetch 0 5) (started 0)).port 0).sdo = [0xFF, 0, 0, 0, 0, 0] := by
  decide +kernel

/-- READ_STATUS and READ_PEER_STATUS. -/
theorem test_status :
    ((after (.readStatus 0 17) (started 0)).port 0).sdo
      = [0xFF, 0, 1, 0, 0, 0, 8, 0, 0, 0, 0xFF, 0, 3, 0x96, 0, 0, 1, 0]
    ∧ (((after (.readPeerStatus 0 3 3) (started 0)).port 0).sdo = [0xFF, 0xFF, 0xA5, 3, 0])
    ∧ (((after (.readPeerStatus 1 3 1) (started 1)).port 1).sdo = [0xFF, 0xFF, 0xA6])
    ∧ (((after (.readPeerStatus 0 4 1) (started 0)).port 0).sdo = [0xFF, 0xFF, 0xA6]) := by
  decide +kernel

/-- The checked immediate requests: acknowledgement, and effect at the deselect. -/
theorem test_checked_requests :
    ((after (.deselect 0 []) (after (.writeEnable 0 0x20 1) (started 0))).port 0).latch = true
    ∧ ((after (.writeEnable 0 0x21 1) (started 0)).port 0).sdo = [0xFF, 0xFF, 0xA2]
    ∧ ((after (.deselect 0 []) (after (.writeDisable 0 0x29 1)
        ((started 0).modPort 0 fun x => { x with latch := true }))).port 0).latch = false
    ∧ ((after (.deselect 0 []) (after (.clearEvents 0 0x02 (crc8 [0x63, 0x02]) 1)
        ((started 0).modPort 0 fun x => { x with sticky := 0x06 }))).port 0).sticky = 0x04
    ∧ ((after (.deselect 0 []) (after (.setEventEnables 0 0x83 (crc8 [0x64, 0x83]) 1) (started 0))).port 0).enables = 0x83
    ∧ ((after (.deselect 0 []) (after (.clearCauses 0 0x01 (crc8 [0x65, 0x01]) 1) (started 0))).port 0).causes = 0 := by
  decide +kernel

/-- CONFIRM_BOOT, SERVICE and RESTART. -/
theorem test_boot_requests :
    (((after (.deselect 0 []) (after (.confirmBoot 0 (crc8 [0x71]) 1) (supervised (started 0) .unconfirmed))).port
      0).bootState = .running)
    ∧ ((after (.confirmBoot 0 (crc8 [0x71]) 1) (started 0)).port 0).sdo = [0xFF, 0xFF, 0xA6]
    ∧ ((after (.deselect 0 []) (after (.service 0 0x96 0x63 1) ((supervised (started 0) .running).modPort 0 fun x =>
        { x with watchdog := .running 100 true }))).port 0).expected = .x69
    ∧ ((after (.deselect 0 []) (after (.restart 0 (crc8 [0x73]) 1) (started 0))).port 0).causes = 0x41 := by
  decide +kernel

/-- PRESENTATION and DEADLINE_EXPIRY. -/
theorem test_queue_events :
    ((after (.presentation 0) (heading base 0 (request .lockRegion [0]))).port 0).completions
      = [⟨7, .lockRegion, .done, false, []⟩]
    ∧ (after (.presentation 0) (heading base 0 (request .lockRegion [0]))).region 0
      = .inUse true ⟨0, 1⟩ #v[.full, .read, .none, .write]
    ∧ (((after (.presentation 0) (heading base 0 (request .lockRegion [0]))).port 3).sticky = 0x04)
    ∧ ((after (.deadlineExpiry 0 (.queued 0)) (base.modPort 0 fun x =>
        { x with queue := [⟨request .read [], .running 10, false⟩] })).port 0).queue
      = [⟨request .read [], .stopped, true⟩]
    ∧ ((after (.deadlineExpiry 0 .current) ((running base 0 ⟨request .read [], .running 10, none, none⟩).join 0 0
        ⟨.read 0 1, none, false⟩)).port 0).completions = [⟨7, .read, .expired, false, []⟩] := by
  decide +kernel

/-- READ_GRANT, WRITE_GRANT and WRITE_START. -/
theorem test_grants :
    ((after (.readGrant 0) ((running base 1 ⟨request .read [], .running 10, none, none⟩).join 0 1
        ⟨.read 0 1, none, false⟩)).bank 0).readSlot = some ⟨.port 1, .read, 0, 1⟩
    ∧ ((after (.writeGrant 0) ((running base 0 ⟨request .program [], .stopped, none, none⟩).join 0 0
        programEntry)).bank 0).writeSlot = .busy .programming programOp
    ∧ ((after (.writeStart 0) (writing base .starting eraseOp)).bank 0).writeSlot = .busy .erasing eraseOp := by
  decide +kernel

/-- SUSPEND_COMPLETE, which resumes at once where nothing holds the erase, and RESUME. -/
theorem test_suspend_and_resume :
    ((after (.suspendComplete 0) (writing base .suspending eraseOp)).bank 0).writeSlot = .busy .erasing eraseOp
    ∧ ((after (.suspendComplete 0) (writing base .suspending eraseOp)).bank 0).suspendCount = 1
    ∧ ((after (.resume 0) (writing base .suspended eraseOp)).bank 0).writeSlot = .busy .erasing eraseOp := by
  decide +kernel

/-- READ_COMPLETE, PROGRAM_COMPLETE with its wrap, SECTOR_ERASE_COMPLETE. -/
theorem test_completions :
    ((after (.readComplete 0) ((running { base with array := [(1, 0x5A)] } 0 ⟨request .read [], .stopped, none,
        none⟩).modBank 0 fun k => { k with readSlot := some ⟨.port 0, .read, 0, 2⟩ })).port 0).completions
      = [⟨7, .read, .done, false, [0xFF, 0x5A]⟩]
    ∧ (after (.programComplete 0) (writing (running base 0 ⟨request .program [], .stopped, none, none⟩) .programming
        programOp)).array = [(256, 0xF0), (511, 0x0F)]
    ∧ ((after (.programComplete 0) (writing (running base 0 ⟨request .program [], .stopped, none, none⟩) .programming
        programOp)).port 0).completions = [⟨7, .program, .done, true, []⟩]
    ∧ (after (.sectorEraseComplete 0) (writing (running { base with array := [(4095, 0), (4096, 0)] } 0
        ⟨request .eraseSector [], .stopped, none, none⟩) .suspending eraseOp)).array = [(4096, 0)] := by
  decide +kernel

/-- PULSE_RELEASE, BOOT_TIMER_EXPIRY, WATCHDOG_HALF and WATCHDOG_EXPIRY. -/
theorem test_boot_events :
    ((after (.pulseRelease 0) ((supervised base .held).modPort 0 fun x => { x with pulse := .running 10 })).port
      0).bootState = .unconfirmed
    ∧ ((after (.bootTimerExpiry 0) ((supervised base .unconfirmed).modPort 0 fun x =>
        { x with bootTimer := .running 4000, attempts := 2 })).port 0).bootState = .failed
    ∧ ((after (.bootTimerExpiry 0) ((supervised base .unconfirmed).modPort 0 fun x =>
        { x with bootTimer := .running 4000, attempts := 1 })).port 0).bootState = .held
    ∧ ((after (.watchdogHalf 0) ((supervised base .running).modPort 0 fun x =>
        { x with watchdog := .running 100 false })).port 0).sticky = 0x10
    ∧ ((after (.watchdogExpiry 0) ((supervised base .running).modPort 0 fun x =>
        { x with watchdog := .running 100 true })).port 0).causes = 0x11 := by
  decide +kernel

/-- CONFIGURATION_WRITE_BEGIN and CONFIGURATION_WRITE_COMPLETE. -/
theorem test_configuration_writes :
    (after .configurationWriteBegin base.requestCommit).writer = ⟨some base.snapshot, false, false, false⟩
    ∧ (after .configurationWriteBegin base.requestCommit).block = none
    ∧ (after .configurationWriteComplete (after .configurationWriteBegin base.requestCommit)).block.map StoredImage.image
      = some base.snapshot
    ∧ ((after .configurationWriteComplete (after .configurationWriteBegin base.requestCommit)).port 0).sticky = 0x20 := by
  decide +kernel

/-! ## The hypotheses of every statement are met, clause by clause -/

/-- ResetsGiveEveryBlockItsResetValues, ResetCutsTheWriteInProgress: each reset, and bytes inside and outside a cut. -/
theorem test_met_resets :
    base.startUp ≠ .unpowered ∧ base.arrayCanonical
    ∧ (writing base .programming programOp).arrayCanonical
    ∧ (writing base .programming programOp).cutCovers 255 = false
    ∧ (writing base .programming programOp).cutCovers 256 = true
    ∧ (writing base .programming programOp).cutCovers 511 = true
    ∧ (writing base .programming programOp).cutCovers 512 = false
    ∧ (writing base .suspended eraseOp).cutCovers 4095 = true
    ∧ (writing base .suspended eraseOp).cutCovers 4096 = false ∧ (writing base .starting eraseOp).cutCovers 0 = false := by
  decide +kernel

/-- A part in the load of its start-up. -/
def loading (block : Option StoredImage) : State := { State.reset with startUp := .loading, block := block }

/-- StrapsNameTheAdministrator, LoadFillsTheTables: an image that is consistent and one that is not, no image, and no load
running. -/
theorem test_met_start_up :
    State.reset.startUp = .resetTaken ∧ base.startUp ≠ .resetTaken ∧ base.startUp ≠ .loading
    ∧ after (.startUpBegin true false) State.reset ≠ State.reset
    ∧ (after (.startUpBegin true false) State.reset).admin ≠ State.reset.admin
    ∧ (loading none).startUp = .loading ∧ (∀ p : Port, ((loading none).port p).hasLive = false)
    ∧ (defaultImage 3).bytes.length = 196 ∧ (defaultImage 3).consistent = true
    ∧ ((after .loadComplete (loading none)).port 0).sticky = 0x40
    ∧ ({ defaultImage 3 with boot := Vector.replicate 4 ⟨true, 0, 0, .a, 3, .s4, .off⟩ } : ConfigImage).consistent = false
    ∧ (loading none).block = none := by
  decide +kernel

/-- LoadFillsTheTables: a stored image with its own check value is used, and one with another check value is not. -/
theorem test_met_check_value :
    (loading (some (defaultImage 3).withCheck)).startUp = .loading
    ∧ (defaultImage 3).withCheck.check = ~~~(crc32Bytes 0xFFFFFFFF (defaultImage 3).bytes)
    ∧ validImage (some (defaultImage 3).withCheck) = some (defaultImage 3)
    ∧ validImage (some ⟨defaultImage 3, (defaultImage 3).check + 1⟩) = none := by
  have other : ∀ c : Word, c + 1 ≠ c := fun c => by bv_omega
  exact ⟨rfl, ConfigImage.check_withCheck _, validImage_withCheck _ (by decide +kernel),
    validImage_of_other_check _ _ (other _)⟩

/-- TransactionStartBeginsOrIsIgnored. -/
theorem test_met_transaction_start :
    (base.port 0).transaction = none ∧ (base.port 0).selected = false ∧ base.startUp = .ready ∧ (base.port 0).pulse = .stopped
    ∧ (base.port 0).bootState ≠ .failed
    ∧ (State.reset.port 0).transaction = none ∧ State.reset.startUp ≠ .unpowered ∧ State.reset.startUp ≠ .ready
    ∧ ((base.pulseStart 0 none).port 0).transaction = none ∧ ((base.pulseStart 0 none).port 0).pulse.isRunning = true
    ∧ ((base.enterFailed 0).port 0).bootState = .failed ∧ ((started 0).port 0).transaction ≠ none
    ∧ ((started 0).port 0).selected = true
    ∧ frameUnfinished [0x61] = true ∧ frameUnfinished [0x61, 0x20] = false ∧ frameUnfinished [0x53] = false
    ∧ frameUnfinished [0x52, 1, 0, 0, 0, 0, 0, 1, 0, 0] = true
    ∧ frameUnfinished [0x52, 1, 0, 0, 0, 0, 0, 1, 0, 0, 0] = false
    ∧ frameUnfinished [0x52, 1, 0, 0, 0, 0, 0, 1, 1, 1] = false
    ∧ (after .lossOfPower base).startUp = .unpowered ∧ ((after .lossOfPower base).port 0).transaction = none
    ∧ ((after .lossOfPower base).port 0).selected = false := by
  decide +kernel

/-- No transaction kind has the opener 0x00. -/
theorem test_no_kind_is_zero (k : TransactionKind) : k.opener ≠ 0x00 := by cases k <;> decide

/-- UnknownOpenerIsBadFrame and the statements about frames: nothing of the frame taken, and some of it. -/
theorem test_met_frames :
    (started 0).inFrame 0 [0x00] ∧ (started 0).sent 0 = [] ∧ ((started 0).port 0).stream = none
    ∧ (started 0).inFrame 0 [0x53] ∧ (started 0).inFrame 0 [0x54] ∧ (started 0).inFrame 0 [0x55, 3]
    ∧ (begun [0x55]).inFrame 0 [0x55, 3] ∧ (started 0).inFrame 0 (directReadBytes 0)
    ∧ (begun [0x31, 0, 0]).inFrame 0 (directReadBytes 0) ∧ (started 0).inFrame 0 (submitFrame readFrame)
    ∧ (begun [0x52, 0x01, 7]).inFrame 0 (submitFrame readFrame)
    ∧ (started 0).inFrame 0 (submitFrame { badFrame with payloadLength := 257, payload := [] })
    ∧ (begun [0x72, 0x96]).inFrame 0 ([0x72, 0x96] ++ [0x63]) ∧ ¬ [0x61] <+: ([0x62, 0x29] : List Byte) := by
  decide +kernel

/-- TranslationAndChecksInOrder: an unbound window, a level too low, an offset at the region's size, the last offset; and
DirectReadDecidesAtAddressCompletion with each of its bank's write slots. -/
theorem test_met_translation :
    (base.port 0).window 2 = none ∧ (2 : Fin 4).val = (0x800000 : LogicalAddress).toNat / 0x400000
    ∧ (3 : Fin 4).val = (0xFFFFFF : LogicalAddress).toNat / 0x400000
    ∧ (0 : Fin 4).val = (0x3FFFFF : LogicalAddress).toNat / 0x400000
    ∧ (base.port 0).window 0 = some 0 ∧ base.region 0 = .inUse false ⟨0, 1⟩ #v[.full, .read, .none, .write]
    ∧ Level.none.permits .read = false ∧ Level.read.permits .read = true ∧ Level.read.permits .write = false
    ∧ (started 2).access 2 0 .read (fun offset size => decide (offset < size)) = .failed .denied
    ∧ (started 0).access 0 0x1000 .read (fun offset size => decide (offset < size)) = .failed .range
    ∧ (started 0).access 0 0x0FFF .read (fun offset size => decide (offset < size)) = .ok 0 ⟨0, 1⟩ 0xFFF
    ∧ ((started 0).bank 0).writeSlot = .none ∧ (SectorRange.bank ⟨0, 1⟩) = 0
    ∧ ((writing (started 0) .erasing eraseOp).bank 0).suspendCount < 8
    ∧ 8 ≤ (((writing (started 0) .erasing eraseOp).modBank 0 fun k => { k with suspendCount := 8 }).bank 0).suspendCount := by
  decide +kernel

/-- ReadsReturnStoredOrFreeBytes, ProtectionOfASector. -/
theorem test_met_reads :
    base.underErase 0 = false ∧ (writing base .erasing eraseOp).underErase 4095 = true
    ∧ (writing base .erasing eraseOp).underErase 4096 = false ∧ (writing base .starting eraseOp).underErase 0 = false
    ∧ base.protectedSector 0 = false ∧ (supervised base .running).protectedSector 0 = true
    ∧ (supervised base .running).protectedSector 1 = false ∧ (supervised base .running).protectedSector 1024 = false
    ∧ ((supervised base .running).modPort 0 fun x => { x with trial := some .b }).protectedSector 1026 = true := by
  decide +kernel

/-- The frame of a PROGRAM of one byte. -/
def programFrame : SubmitFrame := ⟨0x02, 7, 0, 1, 1, [0xAA], 0⟩

/-- SubmitIsAcknowledgedByFourChecks, WellFormedRequestRecords: each check failing first, and none. -/
theorem test_met_submit :
    ({ badFrame with payloadLength := 257, payload := [] } : SubmitFrame).delimited = true
    ∧ ({ badFrame with payload := [0, 0] } : SubmitFrame).delimited = true
    ∧ submitRecord { badFrame with payload := [0, 0] } = none ∧ badFrame.delimited = false
    ∧ readFrame.delimited = true ∧ submitRecord readFrame = some ⟨.read, 7, 0, 1, []⟩
    ∧ submitRecord { readFrame with count := 0 } = none ∧ submitRecord { readFrame with count := 257 } = none
    ∧ (submitRecord { readFrame with count := 256 }).isSome = true
    ∧ ((started 0).port 0).settings.checkRequired = true ∧ readFrame.check = crc8 (submitBytes readFrame)
    ∧ (0 : Byte) ≠ crc8 (submitBytes readFrame) ∧ submitRecord programFrame = some ⟨.program, 7, 0, 1, [0xAA]⟩
    ∧ ((started 0).port 0).latch = false ∧ ((started 0).port 0).creditsInUse = 0
    ∧ (((started 0).modPort 0 fun x =>
        { x with completions := List.replicate 8 ⟨0, .read, .done, false, []⟩ }).port 0).creditsInUse = 8 := by
  decide +kernel

/-- CheckedFramesAreAcknowledged, FetchAndStatusAnswers. -/
theorem test_met_checked_frames :
    (0x20 : Byte) = crc8 [0x61] ∧ (0x21 : Byte) ≠ crc8 [0x61]
    ∧ decide (((started 0).port 0).bootState = .trial ∨ ((started 0).port 0).bootState = .unconfirmed) = false
    ∧ decide (((supervised (started 0) .trial).port 0).bootState = .trial) = true
    ∧ ((started 0).port 0).watchdog = .stopped ∧ (started 0).admin = 0 ∧ ((started 0).port 0).completions = []
    ∧ (3 : Byte).toNat = (3 : Port).val ∧ 4 ≤ (4 : Byte).toNat := by
  decide +kernel

/-- BytesOutsideAFrameAreOnlyClocked: a decided, an ignored, a cut, a silenced and an undecided transaction. -/
theorem test_met_clocked :
    frameOf (.writeEnable 0 0x20 3) = some (0, [0x61, 0x20], 3) ∧ (Instr.writeEnable 0 0x20 3).wf = true
    ∧ ((decided .nothing).port 0).transaction = some (decidedTransaction .nothing)
    ∧ ((decided .nothing).port 0).stream = none
    ∧ ((after (.transactionStart ⟨0, []⟩) (base.pulseStart 0 none)).port 0).transaction = some (ignoredTransaction 0)
    ∧ ((after (.selectHoldLimit 0 []) (decided .nothing)).port 0).transaction
      = some { decidedTransaction .nothing with cut := true, holdTimer := .stopped }
    ∧ (((decided (.fetched none)).flush 0).port 0).transaction
      = some { decidedTransaction (.fetched none) with silenced := true } := by
  decide +kernel

/-- FinishTakesEverythingDue: nothing due, and something. -/
theorem test_met_finish :
    base.internalStep = none ∧ ((heading base 0 (request .lockRegion [0])).internalStep).isSome = true
    ∧ base.requestCommit.internalStep = some base.requestCommit.beginWrite := by
  decide +kernel

/-- EventsNotDueHaveNoEffect: every event that is not due in `base`, and in states with something else going on. -/
theorem test_met_not_due :
    (base.port 0).queue = [] ∧ (base.port 0).current = none ∧ (base.port 0).queue[0]? = none
    ∧ ((heading base 0 (request .read [])).port 0).queue[0]? = some (waiting (request .read []))
    ∧ (waiting (request .read [])).timer = .stopped ∧ (base.bank 0).nextGrant = none
    ∧ ((base.join 0 0 ⟨.read 0 1, none, false⟩).bank 0).nextGrant = some (0, ⟨.read 0 1, none, false⟩)
    ∧ ((base.join 0 0 programEntry).bank 0).nextGrant = some (0, programEntry)
    ∧ (base.bank 0).writeSlot = .none ∧ (base.bank 0).readSlot = none ∧ (base.port 0).pulse = .stopped
    ∧ (base.port 0).bootTimer = .stopped ∧ (base.port 0).watchdog = .stopped ∧ base.writer.waiting = false
    ∧ base.writer.commitPending = false ∧ base.writer.snapshot = none
    ∧ (after .lossOfPower base).startUp = .unpowered := by
  decide +kernel

/-- The statements about the deselect: decided transactions with each kind of effect. -/
theorem test_met_deselect :
    ((decided .setLatch).port 0).transaction = some (decidedTransaction .setLatch)
    ∧ ((decided (.clearEvents 0x02)).port 0).stream = none
    ∧ (decided (.accept (request .read []))).quiet = true
    ∧ ((decided (.accept (request .read []))).port 0).current = none
    ∧ (5 ≤ 6 + 0 - 1 ∧ 6 + 0 - 2 < 5) := by
  decide +kernel

/-- DeselectOfBootRequests: TRIAL, UNCONFIRMED, another state, a running and a stopped watchdog. -/
theorem test_met_boot_requests :
    ((supervised (decided .confirmBoot) .unconfirmed).port 0).bootState = .unconfirmed
    ∧ (((supervised (decided .confirmBoot) .trial).modPort 0 fun x => { x with trial := some .b }).port 0).trial = some .b
    ∧ ((decided .confirmBoot).port 0).bootState = .off
    ∧ (((supervised (decided (.service 0x96)) .running).modPort 0 fun x =>
        { x with watchdog := .running 100 true }).port 0).watchdog = .running 100 true
    ∧ ((decided (.service 0x96)).port 0).expected = .x96 ∧ (0x69 : Byte) ≠ 0x96
    ∧ ((decided .restart).port 0).watchdog = .stopped := by
  decide +kernel

/-- A stream of P0 open on region 0, its last byte next. -/
def streaming : State := after (.directRead 0 0x000FFF 3) (started 0)

/-- StreamClosesAtDeselectAndHoldLimit, SelectHoldLimitCutsTheTransaction. -/
theorem test_met_streams :
    (streaming.port 0).stream = some ⟨0, 0, 4096, 4095⟩
    ∧ (streaming.port 0).transaction
      = some ⟨false, false, false, some .directRead, [0x31, 0, 0x0F, 0xFF], 7, .running 50,
        some ⟨[0xFF, 0xFF, 0xD0], .stream⟩⟩
    ∧ (streaming.bank 0).openStreams = 1
    ∧ ((after (.deselect 0 [0]) streaming).port 0).sdo = List.replicate 6 0xFF ++ [0xD0, 0xFF]
    ∧ ((after (.deselect 0 [0]) streaming).bank 0).openStreams = 0
    ∧ ((after (.selectHoldLimit 0 []) streaming).port 0).stream = none
    ∧ ((started 0).port 0).transaction = some (framingTransaction [])
    ∧ frameUnfinished ([0x52] ++ [1, 2]) = true ∧ frameUnfinished ([0x61] ++ [0x20]) = false
    ∧ (base.port 0).transaction = none := by
  decide +kernel

/-- FinishTakesEverythingDue: each kind of step due, at either bank, and none. -/
theorem test_met_due :
    base.quiet = true ∧ (writing base .starting programOp).quiet = false ∧ (writing base .suspended eraseOp).quiet = false
    ∧ (base.modBank 1 fun k => k.setCandidate 2 (some ⟨.read 0x400000 1, none, false⟩)).quiet = false
    ∧ ((writing base .erasing eraseOp).modBank 0 fun k => k.setCandidate 2 (some ⟨.read 0 1, none, false⟩)).quiet = false
    ∧ (base.modPort 3 fun x => { x with queue := [⟨request .read [], .stopped, false⟩] }).quiet = false
    ∧ base.requestCommit.quiet = false := by
  decide +kernel

/-- FlushEmptiesThePort, PulseAndFailureHoldThePort: with and without a live transaction. -/
theorem test_met_flush :
    ((streaming.flush 0).port 0).hasLive = true ∧ ((base.flush 0).port 0).hasLive = false
    ∧ ((streaming.flush 0).port 0).transaction
      = some ⟨false, false, true, some .directRead, [0x31, 0, 0x0F, 0xFF], 7, .running 50,
        some ⟨[0xFF, 0xFF, 0xD0], .stream⟩⟩
    ∧ (((writing base .erasing eraseOp).flush 0).bank 0).writeSlot = .busy .erasing { eraseOp with owner := .orphan }
    ∧ (((writing base .erasing eraseOp).flush 1).bank 0).writeSlot = .busy .erasing eraseOp
    ∧ ((streaming.pulseStart 0 (some .selfRestart)).port 0).sticky = 0x02 := by
  decide +kernel

/-- The head of a queue, for every statement about a presentation. -/
theorem test_met_heads (kind : RequestKind) (payload : List Byte) :
    (heading base 0 (request kind payload)).heads 0 (waiting (request kind payload)) [] :=
  ⟨rfl, rfl⟩

/-- PresentationEndsMarkedAndForbidden, PresentationOfArrayRequests. -/
theorem test_met_array_presentations :
    (heading base 1 (request .storeConfig [])).heads 1 (waiting (request .storeConfig [])) []
    ∧ (1 : Port) ≠ base.admin ∧ (waiting (request .read [])).expired = false
    ∧ (base.modPort 0 fun x => { x with queue := [⟨request .read [], .stopped, true⟩] }).heads 0
        ⟨request .read [], .stopped, true⟩ []
    ∧ (heading base 0 (request .read [])).access 0 0 .read (fun o size => decide (o + 1 ≤ size)) = .ok 0 ⟨0, 1⟩ 0
    ∧ (heading base 0 (request .read [])).access 0 0x000FFF .read (fun o size => decide (o + 2 ≤ size)) = .failed .range
    ∧ (heading base 0 (request .program [0])).access 0 0x400FFF .write (fun o size => decide (o < size))
      = .ok 1 ⟨1024, 3⟩ 0xFFF
    ∧ (heading base 0 (request .eraseRegion [])).access 0 0x7FFFFF .full (fun _ _ => true) = .ok 1 ⟨1024, 3⟩ 0x3FFFFF
    ∧ (heading base 1 (request .eraseSector [])).access 1 0 .full (fun o size => decide (o < size)) = .failed .denied
    ∧ (heading base 0 (request .program [0])).protectedSector 1024 = false
    ∧ (supervised (heading base 0 (request .program [0])) .running).protectedSector 0 = true
    ∧ (heading base 0 (request .eraseRegion [])).protectedRegion 1 = false
    ∧ (supervised (heading base 0 (request .eraseRegion [])) .running).protectedRegion 0 = true := by
  decide +kernel

/-- PresentationOfArmTrial: eligible in RUNNING, not eligible when OFF, and a target out of range. -/
theorem test_met_arm_trial :
    ((supervised (heading base 0 (request .armTrial [0, 1, 2, 3, 4])) .running).port 0).boot.enabled = true
    ∧ ((supervised (heading base 0 (request .armTrial [0, 1, 2, 3, 4])) .running).port 0).trial = none
    ∧ ((supervised (heading base 0 (request .armTrial [0, 1, 2, 3, 4])) .running).region 1).range? = some ⟨1024, 3⟩
    ∧ (0x01020304 : Word).toNat = 1 * 0x1000000 + 2 * 0x10000 + 3 * 0x100 + 4
    ∧ ((heading base 0 (request .armTrial [0, 1, 2, 3, 4])).port 0).boot.enabled = false ∧ base.admin = 0
    ∧ 4 ≤ ((request .armTrial [4, 0, 0, 0, 0]).payload.getD 0 0).toNat
    ∧ ((after (.presentation 0) (supervised (heading base 0 (request .armTrial [0, 1, 2, 3, 4])) .running)).bank
        1).readSlot = some ⟨.port 0, .verifyChunk, 1024 * 4096, 4096⟩ := by
  decide +kernel

/-- DefineAndClearRegion: the bounds of a range, each refused and each made. -/
theorem test_met_define_and_clear :
    let done (payload : List Byte) : Bool :=
      ((after (.presentation 0) (heading base 0 (request .defineRegion payload))).port 0).completions
        == [⟨7, .defineRegion, .done, false, []⟩]
    done [2, 0, 1, 0x03, 0xFF] = true ∧ done [15, 0x04, 0x03, 0, 1] = true ∧ done [2, 0, 1, 0x04, 0x00] = false
    ∧ done [2, 0, 0, 0, 1] = false ∧ done [2, 0, 1, 0, 0] = false ∧ done [2, 0x07, 0xFF, 0, 1] = true
    ∧ done [2, 0x07, 0xFF, 0, 2] = false ∧ done [16, 0, 1, 0, 1] = false ∧ done [0, 0, 1, 0, 1] = false
    ∧ ((after (.presentation 0) (heading (base.setRegion 5 (.inUse false ⟨9, 1⟩ noAccess)) 0
        (request .clearRegion [5]))).region 5 = .unused)
    ∧ ((after (.presentation 0) (heading base 0 (request .clearRegion [0]))).region 0 ≠ .unused) := by
  decide +kernel

/-- SetAccessAndBindView: each case. -/
theorem test_met_access_and_view :
    let run (kind : RequestKind) (payload : List Byte) : State :=
      after (.presentation 0) (heading base 0 (request kind payload))
    (run .setAccess [0, 2, 1]).region 0 = .inUse false ⟨0, 1⟩ #v[.full, .read, .read, .write]
    ∧ ((run .setAccess [0, 2, 1]).port 2).sticky = 0x04
    ∧ (run .setAccess [0, 1, 0]).region 0 = .inUse false ⟨0, 1⟩ #v[.full, .none, .none, .write]
    ∧ ((run .setAccess [0, 1, 3]).port 0).completions = [⟨7, .setAccess, .conflict, false, []⟩]
    ∧ ((run .setAccess [0, 1, 1]).port 0).completions = [⟨7, .setAccess, .done, false, []⟩]
    ∧ ((run .setAccess [0, 1, 4]).port 0).completions = [⟨7, .setAccess, .conflict, false, []⟩]
    ∧ ((run .setAccess [9, 1, 1]).port 0).completions = [⟨7, .setAccess, .conflict, false, []⟩]
    ∧ ((run .bindView [3, 3, 1]).port 3).windows = #v[some 0, some 1, none, some 1]
    ∧ ((run .bindView [3, 0, 0xFF]).port 3).windows = #v[none, some 1, none, none]
    ∧ ((run .bindView [3, 0, 0xFF]).port 3).sticky = 0x04 ∧ ((run .bindView [3, 2, 0xFF]).port 3).sticky = 0
    ∧ ((run .bindView [3, 0, 9]).port 0).completions = [⟨7, .bindView, .conflict, false, []⟩]
    ∧ ((after (.presentation 0) (supervised (heading base 0 (request .bindView [0, 1, 0])) .running)).port
        0).completions = [⟨7, .bindView, .conflict, false, []⟩] := by
  decide +kernel

/-- LockRegionLocks: LOCKED already, UNUSED, and out of range (the OPEN case is in test_queue_events). -/
theorem test_met_lock :
    let run (n : Byte) : State := after (.presentation 0) (heading (base.setRegion 1 (.inUse true ⟨1024, 3⟩ noAccess)) 0
      (request .lockRegion [n]))
    ((run 1).port 0).completions = [⟨7, .lockRegion, .done, false, []⟩]
    ∧ ((run 2).port 0).completions = [⟨7, .lockRegion, .conflict, false, []⟩]
    ∧ ((run 16).port 0).completions = [⟨7, .lockRegion, .conflict, false, []⟩] := by
  decide +kernel

/-- SetBootEnablesAndDisables: made in and out of a pulse, refused for equal slots and for an enabled record, disabled. -/
theorem test_met_set_boot :
    let run (s : State) (payload : List Byte) : State := after (.presentation 0) (heading s 0 (request .setBoot payload))
    ((run base [3, 1, 0, 1, 1, 7, 7, 7]).port 3).bootState = .running
    ∧ ((run base [3, 1, 0, 1, 1, 7, 7, 7]).port 3).watchdog = .running 8000 false
    ∧ ((run base [3, 1, 0, 1, 1, 7, 7, 7]).port 3).windows = #v[some 1, some 0, none, none]
    ∧ ((run (base.pulseStart 3 none) [3, 1, 0, 1, 0, 1, 0, 0]).port 3).bootState = .held
    ∧ ((run base [3, 1, 0, 0, 0, 1, 0, 0]).port 0).completions = [⟨7, .setBoot, .conflict, false, []⟩]
    ∧ ((run base [3, 1, 0, 1, 0, 8, 0, 0]).port 0).completions = [⟨7, .setBoot, .conflict, false, []⟩]
    ∧ ((run (supervised base .running) [0, 1, 0, 1, 0, 1, 0, 0]).port 0).completions
      = [⟨7, .setBoot, .conflict, false, []⟩]
    ∧ ((run (supervised base .failed) [0, 0, 9, 9, 0, 1, 0, 0]).port 0).bootState = .off := by
  decide +kernel

/-- SetPortAndFlushPort, ResetMasterAndStoreConfig. -/
theorem test_met_port_requests :
    let run (kind : RequestKind) (payload : List Byte) : State :=
      after (.presentation 0) (heading base 0 (request kind payload))
    ((run .setPort [3, 0, 3]).port 3).settings = ⟨false, .s1⟩
    ∧ ((run .setPort [3, 2, 3]).port 0).completions = [⟨7, .setPort, .conflict, false, []⟩]
    ∧ ((run .setPort [3, 1, 4]).port 0).completions = [⟨7, .setPort, .conflict, false, []⟩]
    ∧ ((run .flushPort [3]).port 0).completions = [⟨7, .flushPort, .done, false, []⟩]
    ∧ ((run .flushPort [0]).port 0).completions = [⟨7, .flushPort, .conflict, false, []⟩]
    ∧ ((run .resetMaster [3]).port 3).causes = 0x81 ∧ ((run .resetMaster [3]).port 0).completions.length = 1
    ∧ ((run .resetMaster [0]).port 0).completions = []
    ∧ ((run .resetMaster [4]).port 0).completions = [⟨7, .resetMaster, .conflict, false, []⟩]
    ∧ (run .storeConfig []).writer = ⟨some base.snapshot, false, false, true⟩
    ∧ (∀ k : Port, k ≠ 0 → ((heading base 0 (request .storeConfig [])).port k).presentable = false) := by
  decide +kernel

/-- DeadlineExpiryMarksOrExpires, the grants, and the searches: two candidates, the pointer between them. -/
theorem test_met_grants :
    let s := (running (running base 0 ⟨request .read [], .running 10, none, none⟩) 2
      ⟨request .verify [], .running 10, none, some (freshVerify ⟨0, 1⟩ none)⟩).modBank 0 fun k =>
      { (k.setCandidate 0 (some ⟨.read 0 1, none, false⟩)).setCandidate 2 (some (firstChunk ⟨0, 1⟩)) with pointer := 1 }
    (s.bank 0).nextGrant = some (2, firstChunk ⟨0, 1⟩) ∧ (s.port 0).current = some ⟨request .read [], .running 10, none, none⟩
    ∧ (s.bank 0).candidate 0 = some ⟨.read 0 1, none, false⟩ ∧ (s.bank 1).candidate 0 = none
    ∧ ((s.modBank 0 fun k => { k with pointer := 3 }).bank 0).nextGrant = some (0, ⟨.read 0 1, none, false⟩)
    ∧ ((s.modBank 0 fun k => { k with writeSlot := .busy .suspended eraseOp }).bank 0).nextGrant
      = some (2, firstChunk ⟨0, 1⟩)
    ∧ ((after (.readGrant 0) (s.modBank 0 fun k => { k with writeSlot := .busy .suspended eraseOp })).port 2).completions
      = [⟨7, .verify, .disturbed, false, []⟩]
    ∧ ((after (.readGrant 0) s).bank 0).readSlot = some ⟨.port 2, .verifyChunk, 0, 4096⟩ := by
  decide +kernel

/-- WriteGrantTestsProtection, WritesStartSuspendAndResume. -/
theorem test_met_writes :
    let s := (running base 0 ⟨request .program [], .stopped, none, none⟩).join 0 0 programEntry
    (s.bank 0).nextGrant = some (0, programEntry) ∧ s.protectedSector (256 / 4096) = false
    ∧ (supervised s .running).protectedSector (256 / 4096) = true
    ∧ ((after (.writeGrant 0) (supervised s .running)).port 0).completions
      = [⟨7, .program, .writeProtected, false, []⟩]
    ∧ ((writing base .starting programOp).bank 0).writeSlot = .busy .starting programOp
    ∧ ((writing base .starting programOp).bank 0).readSlot = none
    ∧ ((writing base .starting programOp).bank 0).openStreams = 0
    ∧ (let v := (running base 1 ⟨request .verify [], .stopped, none, some ⟨⟨0, 2⟩, 1, 0, false, none⟩⟩).join 0 1
          ⟨.verifyChunk 1, some 1, true⟩
      (((after (.writeStart 0) (writing v .starting programOp)).verifyOf 1).any fun r => r.disturbed) = true)
    ∧ ((writing base .suspending eraseOp).bank 0).writeSlot = .busy .suspending eraseOp
    ∧ ((writing base .suspended eraseOp).bank 0).openStreams = 0 := by
  decide +kernel

/-- A verify chunk of P0 in the read slot of Bank 1, with its record. -/
def verifying (v : VerifyRecord) : State :=
  (running base 0 ⟨request .verify [], .stopped, none, some v⟩).modBank 1 fun k =>
    { k with readSlot := some ⟨.port 0, .verifyChunk, 1024 * 4096, 4096⟩, digest := some v.running }

/-- ReadCompleteHandsOnTheBytes, VerifyChunkReturnsOrCompletes, ArmTrialOutcome. -/
theorem test_met_read_completes :
    (((base.modBank 0 fun k => { k with readSlot := some ⟨.orphan, .verifyChunk, 0, 4096⟩ }).bank 0).readSlot
      = some ⟨.orphan, .verifyChunk, 0, 4096⟩)
    ∧ ((verifying ⟨⟨1024, 2⟩, 0, 5, false, none⟩).bank 1).readSlot = some ⟨.port 0, .verifyChunk, 1024 * 4096, 4096⟩
    ∧ ((verifying ⟨⟨1024, 2⟩, 0, 5, false, none⟩).bank 1).digest = some 5
    ∧ (verifying ⟨⟨1024, 2⟩, 0, 5, false, none⟩).verifyOf 0 = some ⟨⟨1024, 2⟩, 0, 5, false, none⟩
    ∧ (0 + 1 < 2 ∧ 1 ≤ 0 + 1)
    ∧ (verifying ⟨⟨1024, 1⟩, 0, 5, false, some ⟨0, .b, 1, 9⟩⟩).verifyOf 0
      = some ⟨⟨1024, 1⟩, 0, 5, false, some ⟨0, .b, 1, 9⟩⟩
    ∧ (supervised (verifying ⟨⟨1024, 3⟩, 2, 5, false, some ⟨0, .b, 1, 9⟩⟩) .held).armStands ⟨1024, 3⟩ ⟨0, .b, 1, 9⟩ = true
    ∧ (verifying ⟨⟨1024, 3⟩, 2, 5, false, some ⟨0, .b, 1, 9⟩⟩).armStands ⟨1024, 3⟩ ⟨0, .b, 1, 9⟩ = false
    ∧ (({ (verifying ⟨⟨1024, 3⟩, 2, 5, false, none⟩).bank 1 with
        writeSlot := .busy .starting ⟨.port 1, .sectorErase 1026, none⟩ } : Bank).writesIn ⟨1024, 3⟩) = true := by
  decide +kernel

/-- ProgramCompleteAndsThePage, SectorEraseCompleteErasesTheSector: an owner, an orphan, a chunk before and at the last. -/
theorem test_met_write_completes :
    (running (writing base .programming programOp) 0 ⟨request .program [], .stopped, none, none⟩).arrayCanonical
    ∧ ((writing base .programming programOp).bank 0).writeSlot = .busy .programming programOp
    ∧ [(0x0F : Byte), 0xF0].length ≤ 256
    ∧ ((writing base .erasing ⟨.port 0, .sectorErase 0, some 1⟩).bank 0).writeSlot
      = .busy .erasing ⟨.port 0, .sectorErase 0, some 1⟩
    ∧ ((running base 0 ⟨request .eraseRegion [], .stopped, some ⟨0, 3⟩, none⟩).port 0).current
      = some ⟨request .eraseRegion [], .stopped, some ⟨0, 3⟩, none⟩
    ∧ (1 + 1 < 3 ∧ 3 ≤ 2 + 1)
    ∧ ((after (.sectorEraseComplete 0) (running (writing base .erasing ⟨.port 0, .sectorErase 0, some 1⟩) 0
        ⟨request .eraseRegion [], .stopped, some ⟨0, 3⟩, none⟩)).bank 0).writeSlot
      = .busy .erasing ⟨.port 0, .sectorErase 2, some 2⟩
    ∧ ((after (.sectorEraseComplete 0) (running (writing base .erasing ⟨.port 0, .sectorErase 0, some 2⟩) 0
        ⟨request .eraseRegion [], .stopped, some ⟨0, 3⟩, none⟩)).port 0).completions
      = [⟨7, .eraseRegion, .done, false, []⟩] := by
  decide +kernel

/-- PulseReleaseBootsTheRecord, BootTimerAndWatchdogRunOut, ConfigurationWriteBeginsAndCompletes, LinesFollowTheState. -/
theorem test_met_boot_and_store :
    ((base.pulseStart 0 none).port 0).pulse ≠ .stopped
    ∧ ((base.pulseStart 0 none).port 0).boot.enabled = false
    ∧ (((supervised base .held).modPort 0 fun x => { x with pulse := .running 10, trial := some .b }).port 0).trial = some .b
    ∧ (((supervised base .trial).modPort 0 fun x => { x with bootTimer := .running 4000 }).port 0).bootTimer = .running 4000
    ∧ ((supervised base .unconfirmed).port 0).attempts + 1 < ((supervised base .unconfirmed).port 0).boot.attemptLimit
    ∧ base.requestCommit.writer.commitPending = true ∧ base.requestCommit.writer.snapshot = none
    ∧ (running base.beginWrite 0 ⟨request .storeConfig [], .stopped, none, none⟩).writer.snapshot = some base.snapshot
    ∧ (supervised base .failed).ledCondition = .steady
    ∧ (base.raise 1 .bootFallback).ledCondition = .blink4Hz ∧ (supervised base .unconfirmed).ledCondition = .blink1Hz
    ∧ base.ledCondition = .off
    ∧ base.mrstPin 0 = .high ∧ (base.pulseStart 0 none).mrstPin 0 = .low ∧ base.attnPin 0 = .floating
    ∧ ((base.raise 0 .frameAbort).modPort 0 fun x => { x with enables := 0x02 }).attnPin 0 = .low
    ∧ base.stledPin = .low ∧ State.reset.stledPin = .high ∧ (after .lossOfPower base).mrstPin 0 = .floating := by
  decide +kernel

/-- The invariants hold in `base` too: credits, boot records, tables. -/
theorem test_met_invariants :
    base.creditsWithinEight ∧ base.startUpBlank ∧ base.bootRecordsLegal ∧ base.tablesConsistent := by
  decide +kernel

/-- The invariants hold in `base` too, and with a stream open: banks, requests, nothing due. -/
theorem test_met_invariants_of_banks :
    base.banksLegal ∧ base.requestsPlaced ∧ streaming.banksLegal ∧ base.quiet = true := by
  decide +kernel

/-- STLED shows its condition in `base`. -/
theorem test_met_led : base.ledShown ∧ streaming.ledShown := by decide +kernel

end Sys2Proof.Tests
end

section
/-! PROOFS. What is due inside an event: `quiet` is `nothingDue`, and the end of an event leaves both. -/

namespace Sys2Proof.Machine

open Sys2Proof

/-! ## STLED's refresh -/

/-- STLED's refresh changes STLED alone. -/
theorem State.refreshLed_eq (s : State) : ∃ l : StatusLed, s.refreshLed = { s with led := l } := by
  unfold State.refreshLed
  split
  · exact ⟨s.led, rfl⟩
  · exact ⟨_, rfl⟩

@[simp] theorem State.array_refreshLed (s : State) : s.refreshLed.array = s.array := by
  obtain ⟨l, h⟩ := s.refreshLed_eq; rw [h]
@[simp] theorem State.freeCount_refreshLed (s : State) : s.refreshLed.freeCount = s.freeCount := by
  obtain ⟨l, h⟩ := s.refreshLed_eq; rw [h]
@[simp] theorem State.admin_refreshLed (s : State) : s.refreshLed.admin = s.admin := by
  obtain ⟨l, h⟩ := s.refreshLed_eq; rw [h]
@[simp] theorem State.startUp_refreshLed (s : State) : s.refreshLed.startUp = s.startUp := by
  obtain ⟨l, h⟩ := s.refreshLed_eq; rw [h]
@[simp] theorem State.block_refreshLed (s : State) : s.refreshLed.block = s.block := by
  obtain ⟨l, h⟩ := s.refreshLed_eq; rw [h]
@[simp] theorem State.writer_refreshLed (s : State) : s.refreshLed.writer = s.writer := by
  obtain ⟨l, h⟩ := s.refreshLed_eq; rw [h]
@[simp] theorem State.port_refreshLed (s : State) (p : Port) : s.refreshLed.port p = s.port p := by
  obtain ⟨l, h⟩ := s.refreshLed_eq; rw [h]; rfl
@[simp] theorem State.bank_refreshLed (s : State) (b : BankId) : s.refreshLed.bank b = s.bank b := by
  obtain ⟨l, h⟩ := s.refreshLed_eq; rw [h]; rfl
@[simp] theorem State.region_refreshLed (s : State) (n : RegionId) : s.refreshLed.region n = s.region n := by
  obtain ⟨l, h⟩ := s.refreshLed_eq; rw [h]; rfl

/-- R129: after its refresh STLED shows the condition that held before it. -/
@[simp] theorem State.display_refreshLed (s : State) : s.refreshLed.led.display = s.ledCondition := by
  unfold State.refreshLed
  split
  · next h => exact h.symm
  · rfl

/-- R129: the refresh leaves STLED showing its condition. -/
theorem State.ledShown_refreshLed (s : State) : s.refreshLed.ledShown := by
  have hc : s.refreshLed.ledCondition = s.ledCondition := by
    obtain ⟨l, h⟩ := s.refreshLed_eq; rw [h]; rfl
  exact s.display_refreshLed.trans hc.symm

/-! ## Nothing due -/

/-- R48: no presentation is due at a port exactly when it has a current request or an empty queue. -/
theorem PortState.presentable_eq_false (x : PortState) :
    x.presentable = false ↔ (x.current = none → x.queue = []) := by
  cases hc : x.current <;> cases hq : x.queue <;> simp [PortState.presentable, hc, hq]

/-- R134, R137: no write of the block is due exactly when the writer is WRITING or nothing asks for one. -/
theorem State.writeDue_eq_false (s : State) :
    s.writeDue = false ↔ (s.writer.snapshot = none → s.writer.waiting = false ∧ s.writer.commitPending = false) := by
  cases h : s.writer.snapshot <;> simp [State.writeDue, h]

/-- No step is due at a bank exactly when none of its four tests holds. -/
theorem State.bankStep_eq_none (s : State) (b : BankId) : s.bankStep b = none ↔ (s.bank b).nothingDue := by
  rw [Bank.nothingDue_iff]
  unfold State.bankStep
  cases (s.bank b).startDue with
  | some op => simp
  | none =>
    cases (s.bank b).nextGrant with
    | some g => simp
    | none => cases (s.bank b).suspendDue <;> cases (s.bank b).resumeDue <;> simp

/-- No step is due inside an event exactly when nothing is due, spelled out. -/
theorem State.internalStep_eq_none (s : State) : s.internalStep = none ↔ s.nothingDue := by
  have hports : allPorts.find? (fun p => (s.port p).presentable) = none
      ↔ ∀ p : Port, (s.port p).current = none → (s.port p).queue = [] := by
    simp only [List.find?_eq_none, Bool.not_eq_true, PortState.presentable_eq_false]
    exact ⟨fun h p => h p (mem_allPorts p), fun h p _ => h p⟩
  unfold State.internalStep State.nothingDue
  rw [← hports, ← s.writeDue_eq_false, Fin.forall_fin_two, ← s.bankStep_eq_none, ← s.bankStep_eq_none]
  cases allPorts.find? (fun p => (s.port p).presentable) <;> cases s.writeDue <;> cases s.bankStep 0 <;> simp

/-- The state between commands is one in which nothing is due. -/
theorem State.quiet_iff (s : State) : s.quiet = true ↔ s.nothingDue := by
  rw [State.quiet, Option.isNone_iff_eq_none, s.internalStep_eq_none]

/-! ## The end of an event -/

/-- The end of an event leaves nothing due. -/
theorem State.finish_nothingDue (s : State) : s.finish.nothingDue := by
  have h : (s.settle s.work).nothingDue :=
    (State.internalStep_eq_none _).1 (State.settle_internalStep s.work s (Nat.le_refl _))
  obtain ⟨l, hl⟩ := (s.settle s.work).refreshLed_eq
  rw [State.finish, hl]
  exact h

/-- R129: the end of an event leaves STLED showing its condition. -/
theorem State.finish_ledShown (s : State) : s.finish.ledShown := State.ledShown_refreshLed _

/-- Where no step is due the end of an event is STLED's refresh. -/
theorem State.finish_of_none (s : State) (h : s.internalStep = none) : s.finish = s.refreshLed := by
  have hs : s.settle s.work = s := by cases s.work <;> simp [State.settle, h]
  rw [State.finish, hs]

/-- The first step due may be taken before the end of the event. -/
theorem State.finish_of_some (s t : State) (h : s.internalStep = some t) : s.finish = t.finish := by
  have hlt := s.work_internalStep_lt t h
  obtain ⟨fuel, hw⟩ : ∃ fuel, s.work = fuel + 1 := ⟨s.work - 1, by omega⟩
  have hs : s.settle s.work = t.settle fuel := by rw [hw, State.settle, h]
  rw [State.finish, State.finish, hs, t.settle_enough fuel (by omega)]

/-- R12: a suspend that is due is asked of an ERASING erase below its limit by a waiting read candidate. -/
theorem State.requestSuspend_of_due (s : State) (b : BankId) (h : (s.bank b).suspendDue = true) :
    ∃ (op : WriteOperation) (p : Port) (c : Candidate),
      (s.bank b).writeSlot = .busy .erasing op ∧ (s.bank b).suspendCount < 8
      ∧ (s.bank b).candidate p = some c ∧ c.target.isRead = true
      ∧ s.modBank b Bank.requestSuspend = s.setBank b { s.bank b with writeSlot := .busy .suspending op } := by
  obtain ⟨hs, hr⟩ := (Bool.and_eq_true _ _).mp h
  obtain ⟨p, c, hc, hread⟩ := (s.bank b).hasReadCandidate_iff.1 hr
  unfold Bank.suspendable at hs
  split at hs
  · next op hw =>
    exact ⟨op, p, c, hw, of_decide_eq_true hs, hc, hread, by simp only [State.modBank, Bank.requestSuspend, hw]⟩
  · cases hs

/-- Settles O18: the bound `work` gives the emptiness, and the cases of a step due give its command. -/
theorem finishTakesEverythingDue : Obligations.FinishTakesEverythingDue := by
  refine ⟨fun s => ⟨s.finish_nothingDue, s.finish.quiet_iff.2 s.finish_nothingDue, s.finish_ledShown⟩,
    State.quiet_iff, State.finish_of_none, fun s t h => ⟨s.finish_of_some t h, ?_⟩⟩
  rcases State.internalStep_cases h with ⟨p, hp, rfl⟩ | ⟨hw, rfl⟩ | ⟨b, hb⟩
  · exact .inl ⟨p, by simp only [exec, execPresentation, hp, if_true]⟩
  · exact .inr (.inl (by simp only [exec, execConfigurationWriteBegin, hw, if_true]))
  · refine .inr (.inr ?_)
    rcases hb with ⟨op, ho, rfl⟩ | ⟨-, p, c, hg, rfl⟩ | ⟨-, -, hs, rfl⟩ | ⟨-, -, -, hr, rfl⟩
    · exact .inl ⟨b, .inl (by simp only [exec, execWriteStart, ho])⟩
    · cases hread : c.target.isRead with
      | true => exact .inl ⟨b, .inr (.inl (by simp only [exec, execReadGrant, hg, hread, if_true]))⟩
      | false =>
        refine .inl ⟨b, .inr (.inr (.inl ?_))⟩
        simp only [exec, execWriteGrant, hg, hread, Bool.false_eq_true, if_false]
    · obtain ⟨op, p, c, hw, hn, hc, hread, heq⟩ := s.requestSuspend_of_due b hs
      exact .inr ⟨b, op, p, c, hw, hn, hc, hread, heq⟩
    · exact .inl ⟨b, .inr (.inr (.inr (by simp only [exec, execResume, hr, if_true])))⟩

end Sys2Proof.Machine
end

section
/-! PROOFS. What a command can answer, once for all invariants: it is no event, it takes bytes of a transaction, it
resets the whole part, or it is an event that ends with what is due inside it. -/

namespace Sys2Proof.Machine

open Sys2Proof

/-- What an event does to the part before the steps due inside it, by its command. -/
inductive State.EventEffect (s : State) : Instr → State → Prop where
  | load (h : s.startUp = .loading) : EventEffect s .loadComplete s.loadTables
  | deselect (p : Port) (bytes : List Byte) (tr : Transaction) (h : (s.port p).transaction = some tr)
      (hb : tr.completedBy bytes = false) :
      EventEffect s (.deselect p bytes) ((s.takeBytes p tr bytes).deselect p)
  | holdLimit (p : Port) (bytes : List Byte) (tr : Transaction) (h : (s.port p).transaction = some tr)
      (hb : tr.completedBy bytes = false) (ht : tr.holdTimer.isRunning = true) :
      EventEffect s (.selectHoldLimit p bytes) (((s.takeBytes p tr bytes).cutTransaction p).closeStream p)
  | present (p : Port) (h : (s.port p).presentable = true) : EventEffect s (.presentation p) (s.present p)
  | expire (p : Port) (b : BankId) (cur : Current) (hc : (s.port p).current = some cur)
      (hb : s.waitsUngranted p = some b) (ht : cur.timer.isRunning = true) :
      EventEffect s (.deadlineExpiry p .current) (s.expireCandidate p b)
  | grantRead (b : BankId) (p : Port) (c : Candidate) (h : (s.bank b).nextGrant = some (p, c))
      (hr : c.target.isRead = true) :
      EventEffect s (.readGrant b) (s.grant b p c)
  | grantWrite (b : BankId) (p : Port) (c : Candidate) (h : (s.bank b).nextGrant = some (p, c))
      (hr : c.target.isRead = false) :
      EventEffect s (.writeGrant b) (s.grant b p c)
  | startWrite (b : BankId) (op : WriteOperation) (h : (s.bank b).startDue = some op) :
      EventEffect s (.writeStart b) (s.startWrite b op)
  | suspendComplete (b : BankId) (op : WriteOperation) (h : (s.bank b).writeSlot = .busy .suspending op) :
      EventEffect s (.suspendComplete b) (s.modBank b fun k => k.suspendComplete op)
  | resume (b : BankId) (h : (s.bank b).resumeDue = true) : EventEffect s (.resume b) (s.modBank b Bank.resume)
  | readComplete (b : BankId) (op : ReadOperation) (h : (s.bank b).readSlot = some op) :
      EventEffect s (.readComplete b) (s.readComplete b op)
  | programComplete (b : BankId) (owner : Owner) (page start : Nat) (data : List Byte) (chunk : Option Nat)
      (h : (s.bank b).writeSlot = .busy .programming ⟨owner, .program page start data, chunk⟩) :
      EventEffect s (.programComplete b) (s.programComplete b owner page start data)
  | eraseComplete (b : BankId) (st : WriteState) (owner : Owner) (sector : Nat) (chunk : Option Nat)
      (h : (s.bank b).writeSlot = .busy st ⟨owner, .sectorErase sector, chunk⟩)
      (hst : st = .erasing ∨ st = .suspending) :
      EventEffect s (.sectorEraseComplete b) (s.eraseComplete b owner sector chunk)
  | pulseRelease (p : Port) (h : (s.port p).pulse.isRunning = true) : EventEffect s (.pulseRelease p) (s.pulseRelease p)
  | bootTimerExpiry (p : Port) (h : (s.port p).bootTimer.isRunning = true) :
      EventEffect s (.bootTimerExpiry p) (s.bootTimerExpiry p)
  | watchdogExpiry (p : Port) (h : (s.port p).watchdog.isRunning = true) :
      EventEffect s (.watchdogExpiry p) (s.pulseStart p (some .watchdog))
  | beginWrite (h : s.writeDue = true) : EventEffect s .configurationWriteBegin s.beginWrite
  | completeWrite (image : ConfigImage) (h : s.writer.snapshot = some image) :
      EventEffect s .configurationWriteComplete (s.completeWrite image)

/-- What a command answers. -/
inductive State.Answer (s : State) : Instr → State → Prop where
  /-- No event of the part (log 2, log 21). -/
  | noEvent (c : Instr) : Answer s c s
  | powerOnReset : Answer s .powerOnReset (s.hardReset .resetTaken fun _ => Cause.powerOn.mask).refreshLed
  | deviceReset (h : s.startUp ≠ .unpowered) :
      Answer s .deviceReset
        (s.hardReset .resetTaken fun p => (s.port p).causes ||| Cause.deviceReset.mask).refreshLed
  | lossOfPower : Answer s .lossOfPower (s.hardReset .unpowered fun _ => 0).refreshLed
  | startUpBegin (one zero : Bool) (h : s.startUp = .resetTaken) :
      Answer s (.startUpBegin one zero) { s with startUp := .loading, admin := strapPort one zero }
  /-- Without power the select line alone changes (log 13). -/
  | selectUnpowered (start : TransactionStart) (h : (s.port start.port).transaction = none)
      (hu : s.startUp = .unpowered) :
      Answer s (.transactionStart start) (s.modPort start.port fun x => { x with selected := true })
  /-- With no transaction in progress the select line alone changes (log 19). -/
  | deselectIdle (p : Port) (bytes : List Byte) (h : (s.port p).transaction = none) :
      Answer s (.deselect p bytes) (s.modPort p fun x => { x with selected := false })
  | beginsIgnored (start : TransactionStart) (h : (s.port start.port).transaction = none) (hu : s.startUp ≠ .unpowered)
      (hi : s.ignoresTransactions start.port = true) :
      Answer s (.transactionStart start)
        (s.beginTransaction start.port (ignoredTransaction start.bytes.length) start.bytes.length)
  | beginsFraming (start : TransactionStart) (h : (s.port start.port).transaction = none) (hu : s.startUp ≠ .unpowered)
      (hi : s.ignoresTransactions start.port = false) (hf : frameUnfinished start.bytes = true) :
      Answer s (.transactionStart start)
        (s.beginTransaction start.port (framingTransaction start.bytes) start.bytes.length)
  /-- The end of a frame that opens no stream. -/
  | frame (c : Instr) (p : Port) (bytes : List Byte) (d : Decision) (n : Nat) (hd : d.effect ≠ .stream) :
      Answer s c (s.endFrame p bytes d n)
  /-- A stream attempt at a bank that asks a suspend of its erase where it may (R86). -/
  | notReady (p : Port) (a : LogicalAddress) (n : Nat) (b : BankId)
      (hf : (s.port p).takesFrame (directReadFrame a) = true) (h : s.attempt p a = .notReady b) :
      Answer s (.directRead p a n)
        ((s.modBank b Bank.attemptSuspend).endFrame p (directReadFrame a) (directReadDecision .notReady .nothing) n)
  /-- A stream attempt answered GO (R88). -/
  | go (p : Port) (a : LogicalAddress) (n : Nat) (stream : Stream)
      (hf : (s.port p).takesFrame (directReadFrame a) = true) (h : s.attempt p a = .go stream) :
      Answer s (.directRead p a n)
        ((s.openStream p stream).endFrame p (directReadFrame a) (directReadDecision .go .stream) n)
  /-- The bytes of a DIRECT_READ that its port's transaction does not take (R147). -/
  | pass (p : Port) (a : LogicalAddress) (n : Nat) (hf : (s.port p).takesFrame (directReadFrame a) = false) :
      Answer s (.directRead p a n) (s.passFrame p ((directReadFrame a).length + n))
  /-- Bytes before a select-hold limit that reaches no timed transaction (log 24). -/
  | untimed (p : Port) (bytes : List Byte) (tr : Transaction) (h : (s.port p).transaction = some tr)
      (hb : tr.completedBy bytes = false) (ht : tr.holdTimer.isRunning = false) :
      Answer s (.selectHoldLimit p bytes) (s.takeBytes p tr bytes)
  | markExpired (p : Port) (place : Nat) (q : Queued) (h : (s.port p).queue[place]? = some q)
      (ht : q.timer.isRunning = true) :
      Answer s (.deadlineExpiry p (.queued place)) (s.markExpired p place q)
  | watchdogHalf (p : Port) : Answer s (.watchdogHalf p) (s.watchdogHalf p)
  /-- An event, with what is due inside it. -/
  | event (c : Instr) (u : State) (h : s.EventEffect c u) : Answer s c u.finish

/-- A SUBMIT's decision opens no stream. -/
theorem submitDecision_effect_ne_stream (x : PortState) (f : SubmitFrame) : (submitDecision x f).effect ≠ .stream := by
  simp only [submitDecision, submitOutcome]
  split
  · simp
  · split
    · simp
    · split
      · simp
      · split
        · simp
        · split <;> simp

/-- A FETCH's decision opens no stream. -/
theorem fetchDecision_effect_ne_stream (x : PortState) : (fetchDecision x).effect ≠ .stream := by
  unfold fetchDecision
  split <;> simp

/-- A READ_PEER_STATUS's decision opens no stream. -/
theorem peerStatusDecision_effect_ne_stream (s : State) (p : Port) (b : Byte) :
    (peerStatusDecision s p b).effect ≠ .stream := by
  unfold peerStatusDecision
  split
  · split <;> simp
  · simp

/-- A checked request's decision opens no stream unless its effect is one. -/
theorem checkedDecision_effect_ne_stream (x : PortState) (bytes : List Byte) (check : Byte) (allowed : Bool)
    (e : Effect) (he : e ≠ .stream) : (checkedDecision x bytes check allowed e).effect ≠ .stream := by
  unfold checkedDecision
  split
  · simp
  · split
    · simp
    · exact he

/-- The answer to a checked request that opens no stream. -/
theorem State.Answer.checked (s : State) (c : Instr) (p : Port) (kind : TransactionKind) (more : List Byte)
    (check : Byte) (allowed : Bool) (e : Effect) (n : Nat) (he : e ≠ .stream) :
    s.Answer c (s.endChecked p kind more check allowed e n) :=
  .frame c p _ _ n (checkedDecision_effect_ne_stream _ _ _ _ e he)

/-- The answer to a command that is an event exactly under a condition. -/
theorem State.Answer.of_ite {s t u : State} {c : Instr} {e : Prop} [Decidable e]
    (h : (if e then Host.Outcome.next u.finish else .next s : Host.Outcome State Fault Refusal) = .next t)
    (he : e → s.EventEffect c u) : s.Answer c t := by
  split at h
  · next hc => cases h; exact .event c u (he hc)
  · cases h; exact .noEvent c

/-- The answer to a DIRECT_READ. -/
theorem execDirectRead_answer (p : Port) (a : LogicalAddress) (n : Nat) (s t : State)
    (h : execDirectRead p a n s = .next t) : s.Answer (.directRead p a n) t := by
  unfold execDirectRead at h
  dsimp only at h
  split at h
  · next hf =>
    split at h
    · cases h; exact .frame _ _ _ _ _ (by simp [directReadDecision])
    · next ha => cases h; exact .notReady _ _ _ _ hf ha
    · next ha => cases h; exact .go _ _ _ _ hf ha
  · next hf => cases h; exact .pass _ _ _ (Bool.not_eq_true _ ▸ hf)

/-- The answer to a TRANSACTION_START. -/
theorem execTransactionStart_answer (start : TransactionStart) (s t : State)
    (h : execTransactionStart start s = .next t) : s.Answer (.transactionStart start) t := by
  unfold execTransactionStart at h
  dsimp only at h
  split at h
  · cases h; exact .noEvent _
  · next hn =>
    have htr : (s.port start.port).transaction = none := by
      simp only [Bool.or_eq_true, not_or, Bool.not_eq_true, Option.isSome_eq_false_iff, Option.isNone_iff_eq_none] at hn
      exact hn.2
    split at h
    · next hu => cases h; exact .selectUnpowered _ htr hu
    · next hu =>
      split at h
      · next hi => cases h; exact .beginsIgnored _ htr hu hi
      · next hi =>
        split at h
        · next hf => cases h; exact .beginsFraming _ htr hu (Bool.not_eq_true _ ▸ hi) hf
        · cases h; exact .noEvent _

/-- The answer to a DESELECT. -/
theorem execDeselect_answer (p : Port) (bytes : List Byte) (s t : State) (h : execDeselect p bytes s = .next t) :
    s.Answer (.deselect p bytes) t := by
  unfold execDeselect at h
  split at h
  · next hn => cases h; exact .deselectIdle _ _ hn
  · next tr htr =>
    split at h
    · cases h; exact .noEvent _
    · next hb => cases h; exact .event _ _ (.deselect _ _ _ htr (Bool.not_eq_true _ ▸ hb))

/-- The answer to a SELECT_HOLD_LIMIT. -/
theorem execSelectHoldLimit_answer (p : Port) (bytes : List Byte) (s t : State)
    (h : execSelectHoldLimit p bytes s = .next t) : s.Answer (.selectHoldLimit p bytes) t := by
  unfold execSelectHoldLimit at h
  split at h
  · cases h; exact .noEvent _
  · next tr htr =>
    split at h
    · cases h; exact .noEvent _
    · next hb =>
      cases h
      unfold State.holdLimit
      split
      · next ht => exact .event _ _ (.holdLimit _ _ _ htr (Bool.not_eq_true _ ▸ hb) ht)
      · next ht => exact .untimed _ _ _ htr (Bool.not_eq_true _ ▸ hb) (Bool.not_eq_true _ ▸ ht)

/-- The answer to a DEADLINE_EXPIRY. -/
theorem execDeadlineExpiry_answer (p : Port) (which : Timed) (s t : State)
    (h : execDeadlineExpiry p which s = .next t) : s.Answer (.deadlineExpiry p which) t := by
  unfold execDeadlineExpiry at h
  cases which with
  | queued place =>
    dsimp only at h
    split at h
    · cases h; exact .noEvent _
    · next q hq =>
      split at h
      · next ht => cases h; exact .markExpired _ _ _ hq ht
      · cases h; exact .noEvent _
  | current =>
    dsimp only at h
    split at h
    · next cur b hc hb => exact .of_ite h (.expire p b cur hc hb)
    · cases h; exact .noEvent _

/-- The answer to a READ_GRANT or a WRITE_GRANT. -/
theorem execGrant_answer (b : BankId) (s t : State) :
    (execReadGrant b s = .next t → s.Answer (.readGrant b) t)
    ∧ (execWriteGrant b s = .next t → s.Answer (.writeGrant b) t) := by
  unfold execReadGrant execWriteGrant
  cases hg : (s.bank b).nextGrant with
  | none => exact ⟨fun h => by cases h; exact .noEvent _, fun h => by cases h; exact .noEvent _⟩
  | some g =>
    obtain ⟨p, c⟩ := g
    dsimp only
    split
    · next hr =>
      exact ⟨fun h => by cases h; exact .event _ _ (.grantRead b p c hg hr), fun h => by cases h; exact .noEvent _⟩
    · next hr =>
      exact ⟨fun h => by cases h; exact .noEvent _,
        fun h => by cases h; exact .event _ _ (.grantWrite b p c hg (Bool.not_eq_true _ ▸ hr))⟩

/-- The answer to the end of a sector erase. -/
theorem execSectorEraseComplete_answer (b : BankId) (s t : State) (h : execSectorEraseComplete b s = .next t) :
    s.Answer (.sectorEraseComplete b) t := by
  unfold execSectorEraseComplete at h
  split at h
  · next hw => cases h; exact .event _ _ (.eraseComplete _ _ _ _ _ hw (.inl rfl))
  · next hw => cases h; exact .event _ _ (.eraseComplete _ _ _ _ _ hw (.inr rfl))
  · cases h; exact .noEvent _

/-- Every command's answer, by its kind. -/
theorem exec_answer (c : Instr) (s t : State) (h : exec c s = .next t) : s.Answer c t := by
  cases c with
  | powerOnReset =>
    obtain rfl := Host.Outcome.next.inj h
    exact .powerOnReset
  | deviceReset =>
    change execDeviceReset s = _ at h
    unfold execDeviceReset at h
    split at h
    · cases h; exact .noEvent _
    · next hu =>
      obtain rfl := Host.Outcome.next.inj h
      exact .deviceReset hu
  | lossOfPower =>
    obtain rfl := Host.Outcome.next.inj h
    exact .lossOfPower
  | startUpBegin one zero =>
    change execStartUpBegin one zero s = _ at h
    unfold execStartUpBegin at h
    split at h
    · next hr => cases h; exact .startUpBegin _ _ hr
    · cases h; exact .noEvent _
  | loadComplete => exact .of_ite h .load
  | transactionStart start => exact execTransactionStart_answer start s t h
  | unknownOpener p b n =>
    change execUnknownOpener p b n s = _ at h
    unfold execUnknownOpener at h
    split at h
    · cases h; exact .noEvent _
    · cases h; exact .frame _ _ _ _ _ (by simp [unknownDecision])
  | deselect p bytes => exact execDeselect_answer p bytes s t h
  | selectHoldLimit p bytes => exact execSelectHoldLimit_answer p bytes s t h
  | directRead p a n => exact execDirectRead_answer p a n s t h
  | submit p f n =>
    change execSubmit p f n s = _ at h
    unfold execSubmit at h
    split at h
    · cases h; exact .frame _ _ _ _ _ (submitDecision_effect_ne_stream _ _)
    · cases h; exact .noEvent _
  | fetch p n => cases h; exact .frame _ _ _ _ _ (fetchDecision_effect_ne_stream _)
  | readStatus p n => cases h; exact .frame _ _ _ _ _ (by simp [statusDecision])
  | readPeerStatus p b n => cases h; exact .frame _ _ _ _ _ (peerStatusDecision_effect_ne_stream _ _ _)
  | writeEnable p check n => cases h; exact .checked _ _ _ _ _ _ _ _ _ (by simp)
  | writeDisable p check n => cases h; exact .checked _ _ _ _ _ _ _ _ _ (by simp)
  | clearEvents p set check n => cases h; exact .checked _ _ _ _ _ _ _ _ _ (by simp)
  | setEventEnables p set check n => cases h; exact .checked _ _ _ _ _ _ _ _ _ (by simp)
  | clearCauses p set check n => cases h; exact .checked _ _ _ _ _ _ _ _ _ (by simp)
  | confirmBoot p check n => cases h; exact .checked _ _ _ _ _ _ _ _ _ (by simp)
  | service p code check n => cases h; exact .checked _ _ _ _ _ _ _ _ _ (by simp)
  | restart p check n => cases h; exact .checked _ _ _ _ _ _ _ _ _ (by simp)
  | presentation p => exact .of_ite h (.present p)
  | deadlineExpiry p which => exact execDeadlineExpiry_answer p which s t h
  | readGrant b => exact (execGrant_answer b s t).1 h
  | writeGrant b => exact (execGrant_answer b s t).2 h
  | writeStart b =>
    change execWriteStart b s = _ at h
    unfold execWriteStart at h
    split at h
    · next ho => cases h; exact .event _ _ (.startWrite b _ ho)
    · cases h; exact .noEvent _
  | suspendComplete b =>
    change execSuspendComplete b s = _ at h
    unfold execSuspendComplete at h
    split at h
    · next hw => cases h; exact .event _ _ (.suspendComplete b _ hw)
    · cases h; exact .noEvent _
  | resume b => exact .of_ite h (.resume b)
  | readComplete b =>
    change execReadComplete b s = _ at h
    unfold execReadComplete at h
    split at h
    · next ho => cases h; exact .event _ _ (.readComplete b _ ho)
    · cases h; exact .noEvent _
  | programComplete b =>
    change execProgramComplete b s = _ at h
    unfold execProgramComplete at h
    split at h
    · next hw => cases h; exact .event _ _ (.programComplete _ _ _ _ _ _ hw)
    · cases h; exact .noEvent _
  | sectorEraseComplete b => exact execSectorEraseComplete_answer b s t h
  | pulseRelease p => exact .of_ite h (.pulseRelease p)
  | bootTimerExpiry p => exact .of_ite h (.bootTimerExpiry p)
  | watchdogHalf p => cases h; exact .watchdogHalf p
  | watchdogExpiry p => exact .of_ite h (.watchdogExpiry p)
  | configurationWriteBegin => exact .of_ite h .beginWrite
  | configurationWriteComplete =>
    change execConfigurationWriteComplete s = _ at h
    unfold execConfigurationWriteComplete at h
    split at h
    · next hi => cases h; exact .event _ _ (.completeWrite _ hi)
    · cases h; exact .noEvent _

end Sys2Proof.Machine
end

section
/-! PROOFS. What the bytes of a transaction leave alone, and that between commands nothing is due. -/

namespace Sys2Proof.Machine

open Sys2Proof

/-! ## Bytes of a transaction -/

/-- A port's state but for its select line, its transaction, the bytes sent and its stream is as it was. -/
def PortState.SameOffWire (x y : PortState) : Prop :=
  y = { x with selected := y.selected, transaction := y.transaction, sdo := y.sdo, stream := y.stream }

/-- The state but for what bytes of a transaction of port p can change is as it was. -/
def State.OnWire (p : Port) (s t : State) : Prop :=
  ∃ (x : PortState) (n : Nat), (s.port p).SameOffWire x ∧ t = { s.setPort p x with freeCount := n }

/-- A change of a port on the wire alone. -/
theorem State.OnWire.of_modPort (s : State) (p : Port) (f : PortState → PortState)
    (h : (s.port p).SameOffWire (f (s.port p))) : s.OnWire p (s.modPort p f) :=
  ⟨_, s.freeCount, h, rfl⟩

/-- No byte changes nothing. -/
theorem State.OnWire.refl (p : Port) (s : State) : s.OnWire p s :=
  ⟨s.port p, s.freeCount, rfl, by rw [s.setPort_port]⟩

/-- Bytes and then further bytes. -/
theorem State.OnWire.trans {p : Port} {s t u : State} (h : s.OnWire p t) (h' : t.OnWire p u) : s.OnWire p u := by
  obtain ⟨x, n, hx, rfl⟩ := h
  obtain ⟨y, m, hy, rfl⟩ := h'
  refine ⟨y, m, ?_, ?_⟩
  · have hport : State.port { s.setPort p x with freeCount := n } p = x := s.port_setPort_self p x
    rw [hport] at hy
    rw [PortState.SameOffWire] at hx hy ⊢
    rw [hy, hx]
  · exact congrArg (fun v : State => { v with freeCount := m }) (s.setPort_setPort p x y)

/-- Bytes on the wire leave the array alone. -/
theorem State.OnWire.array {p : Port} {s t : State} (h : s.OnWire p t) : t.array = s.array := by
  obtain ⟨x, n, -, rfl⟩ := h; rfl

/-- Bytes on the wire leave the banks alone. -/
theorem State.OnWire.bank {p : Port} {s t : State} (h : s.OnWire p t) (b : BankId) : t.bank b = s.bank b := by
  obtain ⟨x, n, -, rfl⟩ := h; rfl

/-- Bytes on the wire leave the writer alone. -/
theorem State.OnWire.writer {p : Port} {s t : State} (h : s.OnWire p t) : t.writer = s.writer := by
  obtain ⟨x, n, -, rfl⟩ := h; rfl

/-- Bytes on the wire leave STLED alone. -/
theorem State.OnWire.led {p : Port} {s t : State} (h : s.OnWire p t) : t.led = s.led := by
  obtain ⟨x, n, -, rfl⟩ := h; rfl

/-- Bytes on the wire leave the start-up state alone. -/
theorem State.OnWire.startUp {p : Port} {s t : State} (h : s.OnWire p t) : t.startUp = s.startUp := by
  obtain ⟨x, n, -, rfl⟩ := h; rfl

/-- Bytes on the wire leave every port as it was off the wire. -/
theorem State.OnWire.port {p : Port} {s t : State} (h : s.OnWire p t) (q : Port) :
    (s.port q).SameOffWire (t.port q) := by
  obtain ⟨x, n, hx, rfl⟩ := h
  have hport : State.port { s.setPort p x with freeCount := n } q = if q = p then x else s.port q :=
    s.port_setPort p q x
  rw [hport]
  split
  · next e => subst e; exact hx
  · rfl

/-- R145: what clocked bytes can be: none, bytes of an answer or filler, or the data of an open stream. -/
theorem State.clockOut_cases (s : State) (p : Port) (n : Nat) :
    s.clockOut p n = s
    ∨ (∃ tr bytes, (s.port p).transaction = some tr ∧ s.clockOut p n = s.send p tr bytes)
    ∨ ∃ tr head stream m, (s.port p).transaction = some tr ∧ (s.port p).stream = some stream
        ∧ s.clockOut p n = s.sendStream p tr head stream m := by
  unfold State.clockOut
  split
  · exact .inl rfl
  · next tr htr =>
    refine .inr ?_
    split
    · exact .inl ⟨tr, _, htr, rfl⟩
    · next d hd =>
      dsimp only
      split
      · next stream _ hstream => exact .inr ⟨tr, _, stream, _, htr, hstream, rfl⟩
      · exact .inl ⟨tr, _, htr, rfl⟩

/-- Clocked bytes stay on the wire. -/
theorem State.clockOut_onWire (s : State) (p : Port) (n : Nat) : s.OnWire p (s.clockOut p n) := by
  rcases s.clockOut_cases p n with h | ⟨tr, bytes, -, h⟩ | ⟨tr, head, stream, m, -, -, h⟩
  · rw [h]; exact .refl p s
  · rw [h]; exact .of_modPort s p _ rfl
  · rw [h, State.sendStream, State.send, State.modPort_modPort]
    refine ⟨_, _, ?_, rfl⟩
    rfl

/-- The beginning of a transaction stays on the wire. -/
theorem State.beginTransaction_onWire (s : State) (p : Port) (tr : Transaction) (n : Nat) :
    s.OnWire p (s.beginTransaction p tr n) := .of_modPort s p _ rfl

/-- A change of the select line stays on the wire. -/
theorem State.select_onWire (s : State) (p : Port) (level : Bool) :
    s.OnWire p (s.modPort p fun x => { x with selected := level }) := .of_modPort s p _ rfl

/-- The bytes of a frame stay on the wire. -/
theorem State.takeFrame_onWire (s : State) (p : Port) (tr : Transaction) (frame : List Byte) (d : Option Decision) :
    s.OnWire p (s.takeFrame p tr frame d) := .of_modPort s p _ rfl

/-- Further bytes of a transaction stay on the wire. -/
theorem State.takeBytes_onWire (s : State) (p : Port) (tr : Transaction) (bytes : List Byte) :
    s.OnWire p (s.takeBytes p tr bytes) := by
  unfold State.takeBytes
  split
  · exact s.takeFrame_onWire p tr _ _
  · exact s.clockOut_onWire p _

/-- A frame that is not taken stays on the wire. -/
theorem State.passFrame_onWire (s : State) (p : Port) (n : Nat) : s.OnWire p (s.passFrame p n) := by
  unfold State.passFrame
  split
  · exact .refl p s
  · exact s.clockOut_onWire p n

/-- A decided frame stays on the wire. -/
theorem State.decideFrame_onWire (s : State) (p : Port) (frame : List Byte) (d : Decision) :
    s.OnWire p (s.decideFrame p frame d) := by
  unfold State.decideFrame
  split
  · exact .refl p s
  · exact s.takeFrame_onWire p _ _ _

/-- The end of a frame stays on the wire. -/
theorem State.endFrame_onWire (s : State) (p : Port) (frame : List Byte) (d : Decision) (n : Nat) :
    s.OnWire p (s.endFrame p frame d n) := by
  unfold State.endFrame
  split
  · exact (s.decideFrame_onWire p frame d).trans (State.clockOut_onWire _ p n)
  · exact s.passFrame_onWire p _

/-! ## What is due, and STLED's condition, after each answer -/

/-- R129: STLED's condition rests on the start-up state, the boot states and the BOOT_FALLBACK events. -/
theorem State.ledCondition_congr {s t : State} (hu : t.startUp = s.startUp)
    (hb : ∀ p, (t.port p).bootState = (s.port p).bootState)
    (hf : ∀ p, (t.port p).hasSticky .bootFallback = (s.port p).hasSticky .bootFallback) :
    t.ledCondition = s.ledCondition := by
  have hany : ∀ st, t.anyInState st = s.anyInState st := fun st => by simp only [State.anyInState, hb]
  simp only [State.ledCondition, hany, hu, hf]

/-- Between commands: nothing is due and STLED shows its condition. -/
def State.AtRest (s : State) : Prop := s.nothingDue ∧ s.ledShown

/-- Bytes on the wire make nothing due and leave STLED's condition alone. -/
theorem State.OnWire.atRest {p : Port} {s t : State} (h : s.OnWire p t) (hs : s.AtRest) : t.AtRest := by
  obtain ⟨⟨hports, hwriter, hbanks⟩, hled⟩ := hs
  refine ⟨⟨fun q => ?_, h.writer ▸ hwriter, fun b => h.bank b ▸ hbanks b⟩, ?_⟩
  · rw [h.port q]; exact hports q
  · have hc : t.ledCondition = s.ledCondition :=
      State.ledCondition_congr h.startUp (fun q => by rw [h.port q]) (fun q => by rw [h.port q]; rfl)
    rw [State.ledShown, h.led, hc]
    exact hled

/-- A bank changed to one where nothing is due leaves a part at rest. -/
theorem State.AtRest.modBank {s : State} (h : s.AtRest) (b : BankId) (f : Bank → Bank)
    (hf : (s.bank b).nothingDue → (f (s.bank b)).nothingDue) : (s.modBank b f).AtRest := by
  obtain ⟨⟨hports, hwriter, hbanks⟩, hled⟩ := h
  refine ⟨⟨hports, hwriter, fun c => ?_⟩, hled⟩
  rw [State.bank_modBank]
  split
  · exact hf (hbanks b)
  · exact hbanks c

/-- A port changed without a request to present, and without a change of what STLED shows, leaves a part at rest. -/
theorem State.AtRest.modPort {s : State} (h : s.AtRest) (p : Port) (f : PortState → PortState)
    (hq : ((s.port p).current = none → (s.port p).queue = []) →
      (f (s.port p)).current = none → (f (s.port p)).queue = [])
    (hb : (f (s.port p)).bootState = (s.port p).bootState)
    (hf : (f (s.port p)).hasSticky .bootFallback = (s.port p).hasSticky .bootFallback) : (s.modPort p f).AtRest := by
  obtain ⟨⟨hports, hwriter, hbanks⟩, hled⟩ := h
  have hport := s.port_modPort p
  refine ⟨⟨fun q => ?_, hwriter, hbanks⟩, ?_⟩
  · rw [hport]
    split
    · exact hq (hports p)
    · exact hports q
  · have hc : (s.modPort p f).ledCondition = s.ledCondition := by
      refine State.ledCondition_congr rfl (fun q => ?_) (fun q => ?_)
      · rw [hport]; split
        · next e => rw [hb, e]
        · rfl
      · rw [hport]; split
        · next e => rw [hf, e]
        · rfl
    exact hled.trans hc.symm

/-- R86: a suspend asked for by a stream attempt makes nothing due at its bank. -/
theorem Bank.attemptSuspend_nothingDue (k : Bank) (h : k.nothingDue) : k.attemptSuspend.nothingDue := by
  unfold Bank.attemptSuspend Bank.requestSuspend
  split
  · split
    · next op hw =>
      obtain ⟨-, hgrant, -, -⟩ := h
      refine ⟨by simp, fun p c hc => ?_, by simp, by simp⟩
      have hread := (hgrant p c hc).1
      exact ⟨fun hr => (hread hr).imp_right fun _ => by simp, by simp⟩
    · exact h
  · exact h

/-- R88: a stream that opens makes nothing due at its bank. -/
theorem Bank.openStream_nothingDue (k : Bank) (h : k.nothingDue) :
    ({ k with openStreams := k.openStreams + 1 } : Bank).nothingDue := by
  obtain ⟨-, hgrant, hsuspend, -⟩ := h
  exact ⟨fun op _ => .inr (Nat.succ_ne_zero _), hgrant, hsuspend, fun op _ => .inr (.inl (Nat.succ_ne_zero _))⟩

/-- R88: a stream that opens leaves a part at rest. -/
theorem State.AtRest.openStream {s : State} (h : s.AtRest) (p : Port) (stream : Stream) :
    (s.openStream p stream).AtRest :=
  State.AtRest.modBank (h.modPort p _ id rfl rfl) _ _ (Bank.openStream_nothingDue _)

/-- R120: the half of a watchdog's period leaves a part at rest. -/
theorem State.AtRest.watchdogHalf {s : State} (h : s.AtRest) (p : Port) : (s.watchdogHalf p).AtRest := by
  have hmask : ∀ sticky : Byte, (sticky ||| Event.watchdogHalf.mask) &&& Event.bootFallback.mask
      = sticky &&& Event.bootFallback.mask := by decide
  unfold State.watchdogHalf
  split
  · refine State.AtRest.modPort (h.modPort p _ id rfl rfl) p _ id rfl ?_
    simp only [PortState.hasSticky, hmask]
  · exact h

/-- R51: an expiry mark leaves a part at rest. -/
theorem State.AtRest.markExpired {s : State} (h : s.AtRest) (p : Port) (place : Nat) (q : Queued) :
    (s.markExpired p place q).AtRest :=
  h.modPort p _ (fun hq hc => by simp [hq hc]) rfl rfl

/-- R140: the beginning of the start-up sequence leaves a part at rest. -/
theorem State.AtRest.startUpBegin {s : State} (h : s.AtRest) (hu : s.startUp = .resetTaken) (admin : Port) :
    ({ s with startUp := .loading, admin := admin } : State).AtRest := by
  obtain ⟨hdue, hled⟩ := h
  have hc : s.ledCondition = .steady := by simp [State.ledCondition, hu, StartUp.isStartingUp]
  exact ⟨hdue, (hled.trans hc : s.led.display = .steady)⟩

/-! ## The whole part after a reset -/

/-- R20: a bank after a reset. -/
@[simp] theorem State.bank_hardReset (s : State) (u : StartUp) (causes : Port → Byte) (b : BankId) :
    (s.hardReset u causes).bank b = Bank.reset := by fin_cases b <;> rfl

/-- R62, R109, R145, R166: a port after a reset. -/
@[simp] theorem State.port_hardReset (s : State) (u : StartUp) (causes : Port → Byte) (p : Port) :
    (s.hardReset u causes).port p = s.resetPort p (causes p) := by fin_cases p <;> rfl

/-- The region table after a reset (log 10). -/
@[simp] theorem State.region_hardReset (s : State) (u : StartUp) (causes : Port → Byte) (n : RegionId) :
    (s.hardReset u causes).region n = .unused := by simp [State.region, State.hardReset, State.reset]

/-- A bank after a reset has no entry. -/
@[simp] theorem Bank.candidate_reset (p : Port) : Bank.reset.candidate p = none := by fin_cases p <;> rfl

/-- Nothing is due at a bank after a reset. -/
theorem Bank.reset_nothingDue : Bank.reset.nothingDue :=
  ⟨by simp [Bank.reset], by simp, by simp, by simp [Bank.reset]⟩

/-- Nothing is due after a reset of the whole part. -/
theorem State.hardReset_nothingDue (s : State) (u : StartUp) (causes : Port → Byte) :
    (s.hardReset u causes).nothingDue := by
  refine ⟨fun p _ => ?_, fun _ => ⟨rfl, rfl⟩, fun b => ?_⟩
  · rw [State.port_hardReset]; rfl
  · rw [State.bank_hardReset]; exact Bank.reset_nothingDue

/-- A reset of the whole part, STLED's refresh included, leaves it at rest. -/
theorem State.hardReset_atRest (s : State) (u : StartUp) (causes : Port → Byte) :
    (s.hardReset u causes).refreshLed.AtRest := by
  refine ⟨?_, State.ledShown_refreshLed _⟩
  obtain ⟨l, h⟩ := (s.hardReset u causes).refreshLed_eq
  rw [h]
  exact s.hardReset_nothingDue u causes

/-- Every answer to a part at rest leaves it at rest. -/
theorem State.Answer.atRest {s t : State} {c : Instr} (h : s.Answer c t) (hs : s.AtRest) : t.AtRest := by
  cases h with
  | noEvent => exact hs
  | powerOnReset | deviceReset | lossOfPower => exact s.hardReset_atRest _ _
  | startUpBegin one zero hu => exact hs.startUpBegin hu _
  | selectUnpowered start _ _ => exact (s.select_onWire start.port true).atRest hs
  | deselectIdle p bytes _ => exact (s.select_onWire p false).atRest hs
  | beginsIgnored start _ _ _ => exact (s.beginTransaction_onWire start.port _ _).atRest hs
  | beginsFraming start _ _ _ _ => exact (s.beginTransaction_onWire start.port _ _).atRest hs
  | frame _ p bytes d n _ => exact (s.endFrame_onWire p bytes d n).atRest hs
  | notReady p a n b _ _ =>
    exact (State.endFrame_onWire _ p _ _ n).atRest (hs.modBank b _ (Bank.attemptSuspend_nothingDue _))
  | go p a n stream _ _ => exact (State.endFrame_onWire _ p _ _ n).atRest (hs.openStream p stream)
  | pass p a n _ => exact (s.passFrame_onWire p _).atRest hs
  | untimed p bytes tr _ _ _ => exact (s.takeBytes_onWire p tr bytes).atRest hs
  | markExpired p place q _ _ => exact hs.markExpired p place q
  | watchdogHalf p => exact hs.watchdogHalf p
  | event _ u _ => exact ⟨u.finish_nothingDue, u.finish_ledShown⟩

/-- A step answers as a command does, or idles. -/
theorem step_answer (s t : State) (h : step s = .next t) :
    t = s ∨ ∃ c rest, s.pending = c :: rest ∧ exec c { s with pending := rest } = .next t := by
  unfold step at h
  split at h
  · cases h; exact .inl rfl
  · next c rest hp => exact .inr ⟨c, rest, hp, h⟩

/-- Settles O59: every answer leaves a part at rest that was at rest, and rest is quietness. -/
theorem nothingIsLeftDue : Obligations.NothingIsLeftDue := by
  intro s t hquiet hled hstep
  have hs : s.AtRest := ⟨s.quiet_iff.1 hquiet, hled⟩
  have ht : t.AtRest := by
    rcases step_answer s t hstep with rfl | ⟨c, rest, -, hexec⟩
    · exact hs
    · exact (exec_answer c _ t hexec).atRest hs
  exact ⟨ht.1, t.quiet_iff.2 ht.1, ht.2⟩

end Sys2Proof.Machine
end

section
/-! PROOFS. What each operation keeps of the array and of the legality of the banks: one lemma for each named
operation. -/

namespace Sys2Proof.Machine

open Sys2Proof

/-! ## Open streams and their count -/

/-- Whether a port's open stream is at a bank, as a number. -/
def PortState.streamCount (x : PortState) (b : BankId) : Nat := if x.stream.any fun st => st.bank == b then 1 else 0

/-- The open streams at a bank, port by port. -/
theorem State.streamsAt_eq (s : State) (b : BankId) :
    s.streamsAt b = (s.port 0).streamCount b + (s.port 1).streamCount b + (s.port 2).streamCount b
      + (s.port 3).streamCount b := by
  have h : ∀ ps : List Port, (ps.filter fun p => (s.port p).stream.any fun st => st.bank == b).length
      = (ps.map fun p => (s.port p).streamCount b).sum := by
    intro ps
    induction ps with
    | nil => rfl
    | cons p rest ih =>
      have hp : (s.port p).streamCount b = if (s.port p).stream.any (fun st => st.bank == b) then 1 else 0 := rfl
      rw [List.map_cons, List.sum_cons, ← ih, List.filter_cons, hp]
      split
      · rw [List.length_cons]; omega
      · omega
  simp only [State.streamsAt, h, allPorts, List.map_cons, List.map_nil, List.sum_cons, List.sum_nil]
  omega

/-- What a change of one port can do to the number of open streams at a bank. -/
theorem State.streamsAt_modPort (s : State) (p : Port) (f : PortState → PortState) (b : BankId) :
    (s.modPort p f).streamsAt b + (s.port p).streamCount b = s.streamsAt b + (f (s.port p)).streamCount b := by
  simp only [State.streamsAt_eq, State.port_modPort]
  fin_cases p <;> simp <;> omega

/-- The open streams of a bank are the same where every port's stream is at the same bank. -/
theorem State.streamsAt_congr {s t : State} (b : BankId)
    (h : ∀ p, (t.port p).streamCount b = (s.port p).streamCount b) : t.streamsAt b = s.streamsAt b := by
  simp only [State.streamsAt_eq, h]

/-- R88, R92: an open stream stands in its region and belongs to a live transaction that was answered GO. -/
theorem PortState.streamLegal_iff (x : PortState) :
    x.streamLegal = true ↔ ∀ st, x.stream = some st →
      (st.base ≤ st.next ∧ st.next < st.base + st.size)
      ∧ ∃ tr d, x.transaction = some tr ∧ tr.isLive = true ∧ tr.decision = some d ∧ d.effect = .stream := by
  cases hs : x.stream with
  | none => simp [PortState.streamLegal, hs]
  | some st =>
    cases ht : x.transaction with
    | none => simp [PortState.streamLegal, PortState.hasLive, hs, ht]
    | some tr =>
      cases hd : tr.decision <;> simp [PortState.streamLegal, PortState.hasLive, hs, ht, hd, and_assoc]

/-- A port with no open stream has no illegal one. -/
theorem PortState.streamLegal_of_none (x : PortState) (h : x.stream = none) : x.streamLegal = true := by
  simp [PortState.streamLegal, h]

/-- The same stream in the same transaction is as legal. -/
theorem PortState.streamLegal_congr {x y : PortState} (hs : y.stream = x.stream) (ht : y.transaction = x.transaction)
    (h : x.streamLegal = true) : y.streamLegal = true := by
  rw [PortState.streamLegal_iff] at h ⊢
  rw [hs, ht]
  exact h

/-- R88: a port whose transaction was not answered GO has no open stream. -/
theorem PortState.stream_eq_none (x : PortState) (h : x.streamLegal = true)
    (ht : ∀ tr d, x.transaction = some tr → tr.isLive = true → tr.decision = some d → d.effect ≠ .stream) :
    x.stream = none := by
  cases hs : x.stream with
  | none => rfl
  | some st =>
    obtain ⟨-, tr, d, htr, hl, hd, he⟩ := x.streamLegal_iff.1 h st hs
    exact absurd he (ht tr d htr hl hd)

/-! ## Banks legal but for one port's stream -/

/-- The banks are legal and their counts right, and every open stream is legal but perhaps one of port p. -/
structure State.BanksLegalBut (s : State) (p : Port) : Prop where
  bank : ∀ b, (s.bank b).legal = true
  count : ∀ b, (s.bank b).openStreams = s.streamsAt b
  others : ∀ q, q ≠ p → (s.port q).streamLegal = true

/-- Legal banks are legal but for one port. -/
theorem State.banksLegal_but {s : State} (h : s.banksLegal) (p : Port) : s.BanksLegalBut p :=
  ⟨fun b => (h.1 b).1, fun b => (h.1 b).2, fun q _ => h.2 q⟩

/-- Banks legal but for a port are legal where that port's stream is. -/
theorem State.BanksLegalBut.legal {s : State} {p : Port} (h : s.BanksLegalBut p) (hp : (s.port p).streamLegal = true) :
    s.banksLegal := by
  refine ⟨fun b => ⟨h.bank b, h.count b⟩, fun q => ?_⟩
  by_cases e : q = p
  · exact e ▸ hp
  · exact h.others q e

/-- A change of the port that keeps its stream, whatever becomes of its transaction. -/
theorem State.BanksLegalBut.modPort {s : State} {p : Port} (h : s.BanksLegalBut p) (f : PortState → PortState)
    (hs : (f (s.port p)).stream = (s.port p).stream) : (s.modPort p f).BanksLegalBut p := by
  have hport := s.port_modPort p
  refine ⟨h.bank, fun b => (h.count b).trans (State.streamsAt_congr b fun q => ?_).symm, fun q hq => ?_⟩
  · rw [hport]
    split
    · next e => subst e; simp only [PortState.streamCount, hs]
    · rfl
  · rw [hport, if_neg hq]; exact h.others q hq

/-- Table 1-5: beside the same write a bank stays legal where the write permits reads, or where no read and no stream
comes to it. -/
theorem Bank.legal_of_same_write {k k' : Bank} (hw : k'.writeSlot = k.writeSlot)
    (hn : k'.suspendCount = k.suspendCount)
    (h : k.writeSlot.permitsRead = true
      ∨ (k.readSlot = none → k'.readSlot = none) ∧ (k.openStreams = 0 → k'.openStreams = 0))
    (hl : k.legal = true) : k'.legal = true := by
  cases hs : k.writeSlot with
  | none => simp_all [Bank.legal]
  | busy st op => cases st <;> simp_all [Bank.legal, WriteSlot.permitsRead]

/-- R92: one stream fewer leaves a legal bank legal. -/
theorem Bank.legal_closeStream (k : Bank) (h : k.legal = true) :
    ({ k with openStreams := k.openStreams - 1 } : Bank).legal = true :=
  Bank.legal_of_same_write (k := k) rfl rfl (.inr ⟨id, fun ho => by rw [ho]⟩) h

/-- R92: the close of a port's stream leaves no illegal one. -/
theorem State.BanksLegalBut.closeStream {s : State} {p : Port} (h : s.BanksLegalBut p) :
    (s.closeStream p).banksLegal := by
  cases hs : (s.port p).stream with
  | none =>
    rw [s.closeStream_of_none p hs]
    exact h.legal (PortState.streamLegal_of_none _ hs)
  | some st =>
    simp only [State.closeStream, hs]
    set u := s.modPort p fun x => { x with stream := none } with hu
    have hcount : ∀ b, u.streamsAt b + (s.port p).streamCount b = s.streamsAt b := fun b =>
      s.streamsAt_modPort p (fun x => { x with stream := none }) b
    refine ⟨fun b => ?_, fun q => ?_⟩
    · rw [State.bank_modBank]
      have hc := hcount b
      rw [← h.count b] at hc
      split
      · next e =>
        subst e
        have hone : (s.port p).streamCount st.bank = 1 := by simp [PortState.streamCount, hs]
        refine ⟨Bank.legal_closeStream _ (h.bank st.bank), ?_⟩
        show (s.bank st.bank).openStreams - 1 = u.streamsAt st.bank
        omega
      · next e =>
        have hzero : (s.port p).streamCount b = 0 := by
          simp only [PortState.streamCount, hs, Option.any_some, beq_iff_eq]
          exact if_neg fun e' => e e'.symm
        refine ⟨h.bank b, ?_⟩
        show (s.bank b).openStreams = u.streamsAt b
        omega
    · rw [State.port_modBank, hu, State.port_modPort]
      split
      · exact PortState.streamLegal_of_none _ rfl
      · next e => exact h.others q e

/-! ## What an operation keeps -/

/-- An operation keeps the array, and the legality of the banks. -/
structure State.Keeps (s t : State) : Prop where
  array : t.array = s.array
  banks : s.banksLegal → t.banksLegal

/-- Nothing done keeps everything. -/
theorem State.Keeps.refl (s : State) : s.Keeps s := ⟨rfl, id⟩

/-- What one operation and then another keeps. -/
theorem State.Keeps.trans {s t u : State} (h : s.Keeps t) (h' : t.Keeps u) : s.Keeps u :=
  ⟨h'.array.trans h.array, fun hs => h'.banks (h.banks hs)⟩

/-- A change of a port that keeps its transaction and stream. -/
theorem State.keeps_modPort (s : State) (p : Port) (f : PortState → PortState)
    (hs : (f (s.port p)).stream = (s.port p).stream) (ht : (f (s.port p)).transaction = (s.port p).transaction) :
    s.Keeps (s.modPort p f) := by
  refine ⟨rfl, fun h => ((State.banksLegal_but h p).modPort f hs).legal ?_⟩
  rw [State.port_modPort_self]
  exact PortState.streamLegal_congr hs ht (h.2 p)

/-- A change of a bank that keeps it legal, and its count of open streams. -/
theorem State.keeps_modBank (s : State) (b : BankId) (f : Bank → Bank)
    (hl : (s.bank b).legal = true → (f (s.bank b)).legal = true)
    (ho : (f (s.bank b)).openStreams = (s.bank b).openStreams) : s.Keeps (s.modBank b f) := by
  refine ⟨rfl, fun h => ⟨fun c => ?_, h.2⟩⟩
  rw [State.bank_modBank]
  split
  · next e => subst e; exact ⟨hl (h.1 c).1, ho.trans (h.1 c).2⟩
  · exact h.1 c

/-- Operations over a list keep what each of them keeps. -/
theorem State.keeps_foldl {α : Type} (f : State → α → State) (hf : ∀ (s : State) (x : α), s.Keeps (f s x))
    (xs : List α) (s : State) : s.Keeps (xs.foldl f s) := by
  induction xs generalizing s with
  | nil => exact .refl s
  | cons x rest ih => exact (hf s x).trans (ih _)

theorem State.keeps_raise (s : State) (p : Port) (e : Event) : s.Keeps (s.raise p e) := s.keeps_modPort p _ rfl rfl

theorem State.keeps_setWindow (s : State) (p : Port) (w : Fin 4) (r : Option RegionId) : s.Keeps (s.setWindow p w r) :=
  s.keeps_modPort p _ rfl rfl

theorem State.keeps_setRegion (s : State) (n : RegionId) (e : RegionEntry) : s.Keeps (s.setRegion n e) := ⟨rfl, id⟩

theorem State.keeps_stopDeadline (s : State) (p : Port) : s.Keeps (s.stopDeadline p) := s.keeps_modPort p _ rfl rfl

theorem State.keeps_setVerify (s : State) (p : Port) (v : VerifyRecord) : s.Keeps (s.setVerify p v) :=
  s.keeps_modPort p _ rfl rfl

theorem State.keeps_setCandidate (s : State) (b : BankId) (p : Port) (c : Option Candidate) :
    s.Keeps (s.modBank b fun k => k.setCandidate p c) := s.keeps_modBank b _ id rfl

theorem State.keeps_join (s : State) (b : BankId) (p : Port) (c : Candidate) : s.Keeps (s.join b p c) :=
  s.keeps_setCandidate b p (some c)

theorem State.keeps_complete (s : State) (p : Port) (st : Status) (w : Bool) (data : List Byte) :
    s.Keeps (s.complete p st w data) := by
  unfold State.complete
  split
  · exact .refl s
  · exact s.keeps_modPort p _ rfl rfl

theorem State.keeps_completeBare (s : State) (p : Port) (st : Status) : s.Keeps (s.completeBare p st) :=
  s.keeps_complete p st false []

/-! ## Flushes, cuts and pulses -/

/-- R16: a flush leaves a legal bank legal. -/
theorem Bank.legal_flush (k : Bank) (p : Port) (h : k.legal = true) : (k.flush p).legal = true := by
  cases hw : k.writeSlot with
  | none => simp_all [Bank.legal, Bank.flush, WriteSlot.flush, Bank.setCandidate]
  | busy st op => cases st <;> simp_all [Bank.legal, Bank.flush, WriteSlot.flush, Bank.setCandidate]

/-- R92: the close of a stream changes no byte of the array. -/
theorem State.array_closeStream (s : State) (p : Port) : (s.closeStream p).array = s.array := by
  unfold State.closeStream
  split <;> rfl

/-- R59, R92: a flush keeps the array and the banks legal, for the flushed port's stream closes. -/
theorem State.keeps_flush (s : State) (p : Port) : s.Keeps (s.flush p) := by
  have hbanks : s.Keeps ((s.modBank 0 fun k => k.flush p).modBank 1 fun k => k.flush p) :=
    (s.keeps_modBank 0 _ (Bank.legal_flush _ p) rfl).trans (State.keeps_modBank _ 1 _ (Bank.legal_flush _ p) rfl)
  have hwithdraw : ∀ u : State,
      (u.withdrawStore p).array = u.array ∧ (u.BanksLegalBut p → (u.withdrawStore p).BanksLegalBut p) := by
    intro u
    unfold State.withdrawStore
    split
    · exact ⟨rfl, fun h => ⟨h.bank, h.count, h.others⟩⟩
    · exact ⟨rfl, id⟩
  refine ⟨?_, fun h => ?_⟩
  · exact (State.array_closeStream _ p).trans ((hwithdraw _).1.trans hbanks.array)
  · exact ((hwithdraw _).2 ((State.banksLegal_but (hbanks.banks h) p).modPort PortState.flush rfl)).closeStream

/-- R92: the close of a stream leaves its port none. -/
theorem State.stream_closeStream (s : State) (p : Port) : ((s.closeStream p).port p).stream = none := by
  cases hs : (s.port p).stream with
  | none => rw [s.closeStream_of_none p hs]; exact hs
  | some st => rw [s.closeStream_of_open p st hs]; simp

/-- R92: a flush leaves its port no stream. -/
theorem State.stream_flush (s : State) (p : Port) : ((s.flush p).port p).stream = none := State.stream_closeStream _ p

/-- R154: a cut, whatever it cuts, changes its port's transaction and events alone. -/
theorem State.cutTransaction_eq (s : State) (p : Port) :
    ∃ f : PortState → PortState, s.cutTransaction p = s.modPort p f ∧ (f (s.port p)).stream = (s.port p).stream := by
  cases hl : (s.port p).hasLive with
  | false => exact ⟨id, by rw [s.cutTransaction_of_not_live p hl, State.modPort, id, s.setPort_port], rfl⟩
  | true =>
    obtain ⟨tr, htr, hlive⟩ := (Option.any_eq_true _ _).1 hl
    exact ⟨fun x => { x with
      transaction := some { tr with cut := true, holdTimer := .stopped }
      sticky := x.sticky ||| Event.frameAbort.mask }, s.cutTransaction_of_live p tr htr hlive, rfl⟩

/-- R154: a cut at a port with no open stream. -/
theorem State.keeps_cutTransaction (s : State) (p : Port) (h : (s.port p).stream = none) :
    s.Keeps (s.cutTransaction p) := by
  obtain ⟨f, hf, hs⟩ := s.cutTransaction_eq p
  rw [hf]
  refine ⟨rfl, fun hb => ((State.banksLegal_but hb p).modPort f hs).legal (PortState.streamLegal_of_none _ ?_)⟩
  rw [State.port_modPort_self, hs, h]

/-- A flush and the cut after it. -/
theorem State.keeps_flush_cut (s : State) (p : Port) : s.Keeps ((s.flush p).cutTransaction p) :=
  (s.keeps_flush p).trans (State.keeps_cutTransaction _ p (s.stream_flush p))

theorem State.keeps_pulseStart (s : State) (p : Port) (c : Option Cause) : s.Keeps (s.pulseStart p c) :=
  (s.keeps_flush_cut p).trans (State.keeps_modPort _ p _ rfl rfl)

theorem State.keeps_enterFailed (s : State) (p : Port) : s.Keeps (s.enterFailed p) :=
  ((s.keeps_flush_cut p).trans (State.keeps_modPort _ p _ rfl rfl)).trans (State.keeps_raise _ _ _)

theorem State.keeps_bindBoot (s : State) (p : Port) (w0 w1 : RegionId) : s.Keeps (s.bindBoot p w0 w1) :=
  (s.keeps_setWindow p 0 _).trans (State.keeps_setWindow _ p 1 _)

theorem State.keeps_pulseRelease (s : State) (p : Port) : s.Keeps (s.pulseRelease p) := by
  have hstop : s.Keeps (s.modPort p fun x => { x with pulse := .stopped }) := s.keeps_modPort p _ rfl rfl
  unfold State.pulseRelease
  dsimp only
  split
  · split
    · exact (hstop.trans (State.keeps_bindBoot _ p _ _)).trans (State.keeps_modPort _ p _ rfl rfl)
    · exact (hstop.trans (State.keeps_bindBoot _ p _ _)).trans (State.keeps_modPort _ p _ rfl rfl)
  · exact hstop

theorem State.keeps_bootTimerExpiry (s : State) (p : Port) : s.Keeps (s.bootTimerExpiry p) := by
  unfold State.bootTimerExpiry
  split
  · exact ((s.keeps_modPort p _ rfl rfl).trans (State.keeps_raise _ p _)).trans (State.keeps_pulseStart _ p _)
  · have hcount : s.Keeps (s.modPort p fun x => { x with attempts := x.attempts + 1 }) := s.keeps_modPort p _ rfl rfl
    dsimp only
    split
    · exact hcount.trans (State.keeps_pulseStart _ p _)
    · exact hcount.trans (State.keeps_enterFailed _ p)
  · exact .refl s

theorem State.keeps_requestCommit (s : State) : s.Keeps s.requestCommit := ⟨rfl, id⟩

theorem State.keeps_confirm (s : State) (p : Port) : s.Keeps (s.confirm p) := by
  unfold State.confirm
  dsimp only
  split
  · exact s.keeps_modPort p _ rfl rfl
  · exact ((s.keeps_modPort p _ rfl rfl).trans (State.keeps_bindBoot _ p _ _)).trans (State.keeps_requestCommit _)
  · exact .refl s

theorem State.keeps_serviceCode (s : State) (p : Port) (code : Byte) : s.Keeps (s.serviceCode p code) := by
  unfold State.serviceCode
  split
  · exact .refl s
  · split
    · exact s.keeps_modPort p _ rfl rfl
    · exact s.keeps_pulseStart p _

theorem State.keeps_watchdogHalf (s : State) (p : Port) : s.Keeps (s.watchdogHalf p) := by
  unfold State.watchdogHalf
  split
  · exact (s.keeps_modPort p _ rfl rfl).trans (State.keeps_raise _ p _)
  · exact .refl s

theorem State.keeps_resetMaster (s : State) (p : Port) : s.Keeps (s.resetMaster p) := by
  unfold State.resetMaster
  split
  · exact (s.keeps_modPort p _ rfl rfl).trans (State.keeps_pulseStart _ p _)
  · exact s.keeps_pulseStart p _

/-! ## Edits and presentations -/

theorem State.keeps_defineRegion {s t : State} {r : Request} (h : s.defineRegion r = some t) : s.Keeps t := by
  unfold State.defineRegion at h
  split at h
  · cases h
  · dsimp only at h
    split at h
    · cases h; exact s.keeps_setRegion _ _
    · cases h

theorem State.keeps_clearRegion {s t : State} {r : Request} (h : s.clearRegion r = some t) : s.Keeps t := by
  unfold State.clearRegion at h
  split at h
  · cases h
  · split at h
    · split at h
      · cases h; exact s.keeps_setRegion _ _
      · cases h
    · cases h

theorem State.keeps_setAccess {s t : State} {r : Request} (h : s.setAccess r = some t) : s.Keeps t := by
  unfold State.setAccess at h
  split at h
  · split at h
    · cases h
    · split at h
      · cases h; exact .refl s
      · split at h
        · cases h; exact (s.keeps_setRegion _ _).trans (State.keeps_raise _ _ _)
        · cases h
  · cases h

theorem State.keeps_bindView {s t : State} {r : Request} (h : s.bindView r = some t) : s.Keeps t := by
  unfold State.bindView at h
  split at h
  · split at h
    · cases h
    · split at h
      · cases h
      · split at h
        · cases h; exact .refl s
        · cases h; exact (s.keeps_setWindow _ _ _).trans (State.keeps_raise _ _ _)
  · cases h

theorem State.keeps_raiseConfigEdits (s : State) (levels : Vector Level 4) (ps : List Port) :
    s.Keeps (s.raiseConfigEdits levels ps) := by
  induction ps generalizing s with
  | nil => exact .refl s
  | cons p rest ih =>
    unfold State.raiseConfigEdits
    split
    · exact ih s
    · exact (s.keeps_raise p _).trans (ih _)

theorem State.keeps_lockRegion {s t : State} {r : Request} (h : s.lockRegion r = some t) : s.Keeps t := by
  unfold State.lockRegion at h
  split at h
  · cases h
  · split at h
    · cases h
    · cases h; exact .refl s
    · cases h; exact (s.keeps_setRegion _ _).trans (State.keeps_raiseConfigEdits _ _ _)

theorem State.keeps_enableBoot (s : State) (p : Port) (b : StoredBoot) : s.Keeps (s.enableBoot p b) := by
  have hedit := fun f hs ht w0 w1 => ((s.keeps_modPort p f hs ht).trans (State.keeps_bindBoot _ p w0 w1)).trans
    (State.keeps_raise _ p .configEdit)
  unfold State.enableBoot
  dsimp only
  split
  · exact (hedit _ rfl rfl _ _).trans (State.keeps_modPort _ p _ rfl rfl)
  · exact (hedit _ rfl rfl _ _).trans (State.keeps_modPort _ p _ rfl rfl)

theorem State.keeps_setBoot {s t : State} {r : Request} (h : s.setBoot r = some t) : s.Keeps t := by
  unfold State.setBoot at h
  split at h
  · split at h
    · split at h
      · cases h
      · cases h; exact s.keeps_enableBoot _ _
    · cases h; exact s.keeps_modPort _ _ rfl rfl
  · cases h

theorem State.keeps_setPortSettings {s t : State} {r : Request} (h : s.setPortSettings r = some t) : s.Keeps t := by
  unfold State.setPortSettings at h
  split at h
  · cases h; exact s.keeps_modPort _ _ rfl rfl
  · cases h

theorem State.keeps_flushPort {s t : State} {r : Request} (h : s.flushPort r = some t) : s.Keeps t := by
  unfold State.flushPort at h
  split at h
  · cases h
  · split at h
    · cases h
    · cases h; exact s.keeps_flush _

theorem State.keeps_settleEdit (s : State) (p : Port) (o : Option State) (h : ∀ {t}, o = some t → s.Keeps t) :
    s.Keeps (s.settleEdit p o) := by
  cases o with
  | none => exact s.keeps_completeBare p _
  | some t => exact (h rfl).trans (t.keeps_completeBare p _)

theorem State.keeps_carryOut (s : State) (p : Port) (a : Admission) : s.Keeps (s.carryOut p a) := by
  cases a with
  | refused st => exact s.keeps_completeBare p st
  | joins b entry range verify => exact (s.keeps_modPort p _ rfl rfl).trans (State.keeps_join _ b p entry)

theorem State.keeps_presentReset (s : State) (p : Port) (r : Request) : s.Keeps (s.presentReset p r) := by
  unfold State.presentReset
  split
  · exact s.keeps_completeBare p _
  · exact (s.keeps_completeBare p _).trans (State.keeps_resetMaster _ _)

theorem State.keeps_examineKind (s : State) (p : Port) (r : Request) : s.Keeps (s.examineKind p r) := by
  unfold State.examineKind
  cases r.kind with
  | read | program | eraseSector | eraseRegion | verify | armTrial => exact s.keeps_carryOut p _
  | defineRegion => exact s.keeps_settleEdit p _ State.keeps_defineRegion
  | clearRegion => exact s.keeps_settleEdit p _ State.keeps_clearRegion
  | setAccess => exact s.keeps_settleEdit p _ State.keeps_setAccess
  | bindView => exact s.keeps_settleEdit p _ State.keeps_bindView
  | lockRegion => exact s.keeps_settleEdit p _ State.keeps_lockRegion
  | setBoot => exact s.keeps_settleEdit p _ State.keeps_setBoot
  | setPort => exact s.keeps_settleEdit p _ State.keeps_setPortSettings
  | resetMaster => exact s.keeps_presentReset p r
  | flushPort => exact s.keeps_settleEdit p _ State.keeps_flushPort
  | storeConfig => exact ⟨rfl, id⟩

theorem State.keeps_present (s : State) (p : Port) : s.Keeps (s.present p) := by
  unfold State.present
  split
  · next q rest _ _ =>
    have hcur : s.Keeps (s.modPort p fun x => { x with queue := rest, current := some q.toCurrent }) :=
      s.keeps_modPort p _ rfl rfl
    unfold State.presentQueued
    dsimp only
    split
    · exact hcur.trans (State.keeps_completeBare _ p _)
    · split
      · exact hcur.trans (State.keeps_completeBare _ p _)
      · exact hcur.trans (State.keeps_examineKind _ p _)
  · exact .refl s

/-! ## Operations at a bank -/

theorem State.keeps_takeGrant (s : State) (b : BankId) (p : Port) : s.Keeps (s.takeGrant b p) :=
  (s.keeps_modBank b _ id rfl).trans (State.keeps_stopDeadline _ p)

/-- R70: a read enters the read slot only beside no write or a SUSPENDED erase. -/
theorem State.keeps_enterReadSlot (s : State) (b : BankId) (op : ReadOperation) (d : Option Word)
    (h : (s.bank b).writeSlot.permitsRead = true) : s.Keeps (s.enterReadSlot b op d) :=
  s.keeps_modBank b _ (Bank.legal_of_same_write rfl rfl (.inl h)) rfl

/-- R71: a write enters the write slot only where it is NONE. -/
theorem State.keeps_grantWrite (s : State) (b : BankId) (p : Port) (target : WriteTarget) (chunk : Option Nat)
    (h : (s.bank b).writeSlot = .none) : s.Keeps (s.grantWrite b p target chunk) := by
  unfold State.grantWrite
  split
  · exact s.keeps_completeBare p _
  · exact s.keeps_modBank b _ (fun hl => by simpa [Bank.legal, h] using hl) rfl

theorem State.keeps_grantVerify (s : State) (b : BankId) (p : Port) (sector : Nat)
    (h : (s.bank b).writeSlot.permitsRead = true) : s.Keeps (s.grantVerify b p sector) := by
  unfold State.grantVerify
  split
  · exact .refl s
  · split
    · exact s.keeps_completeBare p _
    · exact s.keeps_enterReadSlot b _ _ h

/-- R67: what a search grants, it grants beside a write slot that permits it. -/
theorem State.keeps_grant (s : State) (b : BankId) (p : Port) (c : Candidate)
    (h : (s.bank b).nextGrant = some (p, c)) : s.Keeps (s.grant b p c) := by
  obtain ⟨-, hmay⟩ := (s.bank b).nextGrant_sound p c h
  have hslot : ((s.takeGrant b p).bank b).writeSlot = (s.bank b).writeSlot := by
    simp only [State.takeGrant, State.stopDeadline, State.bank_modPort, State.bank_modBank_self]; rfl
  have htake := s.keeps_takeGrant b p
  unfold State.grant
  cases ht : c.target with
  | read first length =>
    simp only [Bank.mayGrant, ht, CandidateTarget.isRead, if_true, Bool.and_eq_true, ← hslot] at hmay
    exact htake.trans (State.keeps_enterReadSlot _ b _ _ hmay.2)
  | verifyChunk sector =>
    simp only [Bank.mayGrant, ht, CandidateTarget.isRead, if_true, Bool.and_eq_true, ← hslot] at hmay
    exact htake.trans (State.keeps_grantVerify _ b p sector hmay.2)
  | program page start data =>
    refine htake.trans (State.keeps_grantWrite _ b p _ _ ?_)
    cases hw : (s.bank b).writeSlot <;> simp_all [Bank.mayGrant, CandidateTarget.isRead, WriteSlot.isNone]
  | sectorErase sector =>
    refine htake.trans (State.keeps_grantWrite _ b p _ _ ?_)
    cases hw : (s.bank b).writeSlot <;> simp_all [Bank.mayGrant, CandidateTarget.isRead, WriteSlot.isNone]

theorem State.keeps_markDisturbed (s : State) (b : BankId) (sector : Nat) (ps : List Port) :
    s.Keeps (s.markDisturbed b sector ps) := by
  induction ps generalizing s with
  | nil => exact .refl s
  | cons p rest ih =>
    unfold State.markDisturbed
    refine State.Keeps.trans ?_ (ih _)
    split
    · exact .refl s
    · split
      · exact s.keeps_setVerify p _
      · exact .refl s

/-- R9: a write that may start is STARTING, beside an IDLE read slot and no stream. -/
theorem Bank.startDue_eq_some (k : Bank) (op : WriteOperation) :
    k.startDue = some op ↔ k.writeSlot = .busy .starting op ∧ k.readSlot = none ∧ k.openStreams = 0 := by
  cases hw : k.writeSlot with
  | none => simp [Bank.startDue, hw]
  | busy st op' => cases st <;> simp [Bank.startDue, hw]; tauto

/-- R14: an erase that may resume is SUSPENDED, beside an IDLE read slot, no stream and no read candidate. -/
theorem Bank.resumeDue_eq_true (k : Bank) :
    k.resumeDue = true ↔ ∃ op, k.writeSlot = .busy .suspended op ∧ k.readSlot = none ∧ k.openStreams = 0
      ∧ k.hasReadCandidate = false := by
  cases hw : k.writeSlot with
  | none => simp [Bank.resumeDue, hw]
  | busy st op => cases st <;> simp [Bank.resumeDue, hw, and_assoc]

/-- R12: an erase that a suspend may be asked of is ERASING, below its limit. -/
theorem Bank.suspendable_eq_true (k : Bank) :
    k.suspendable = true ↔ ∃ op, k.writeSlot = .busy .erasing op ∧ k.suspendCount < 8 := by
  cases hw : k.writeSlot with
  | none => simp [Bank.suspendable, hw]
  | busy st op =>
    cases st with
    | erasing =>
      simp only [Bank.suspendable, hw, decide_eq_true_eq]
      exact ⟨fun h => ⟨op, rfl, h⟩, fun ⟨_, _, h⟩ => h⟩
    | starting | programming | suspending | suspended => simp [Bank.suspendable, hw]

theorem State.keeps_startWrite (s : State) (b : BankId) (op : WriteOperation) (h : (s.bank b).startDue = some op) :
    s.Keeps (s.startWrite b op) := by
  obtain ⟨hw, hr, ho⟩ := (Bank.startDue_eq_some _ _).1 h
  refine (s.keeps_modBank b _ (fun hl => ?_) ?_).trans (State.keeps_markDisturbed _ b _ _)
  · cases ht : op.target <;> simp_all [Bank.start, Bank.legal, WriteTarget.isProgram]
  · unfold Bank.start; split <;> rfl

theorem State.keeps_requestSuspend (s : State) (b : BankId) (h : (s.bank b).suspendable = true) :
    s.Keeps (s.modBank b Bank.requestSuspend) := by
  obtain ⟨op, hw, hn⟩ := (Bank.suspendable_eq_true _).1 h
  refine s.keeps_modBank b _ (fun hl => ?_) ?_
  · simp_all [Bank.requestSuspend, Bank.legal, Config.suspendLimit]
  · simp only [Bank.requestSuspend, hw]

theorem State.keeps_attemptSuspend (s : State) (b : BankId) : s.Keeps (s.modBank b Bank.attemptSuspend) := by
  cases h : (s.bank b).suspendable with
  | true =>
    have he : s.modBank b Bank.attemptSuspend = s.modBank b Bank.requestSuspend := by
      simp only [State.modBank, Bank.attemptSuspend, h, if_true]
    exact he ▸ s.keeps_requestSuspend b h
  | false =>
    refine s.keeps_modBank b _ ?_ ?_ <;> simp [Bank.attemptSuspend, h]

theorem State.keeps_suspendComplete (s : State) (b : BankId) (op : WriteOperation)
    (h : (s.bank b).writeSlot = .busy .suspending op) : s.Keeps (s.modBank b fun k => k.suspendComplete op) := by
  refine s.keeps_modBank b _ (fun hl => ?_) rfl
  simp only [Bank.legal, h, Bool.and_eq_true, decide_eq_true_eq] at hl
  obtain ⟨⟨⟨htarget, -⟩, -⟩, hcount⟩ := hl
  simp only [Bank.suspendComplete, Bank.legal, htarget, Bool.true_and, Bool.and_eq_true]
  exact ⟨decide_eq_true (Nat.succ_pos _), decide_eq_true hcount⟩

theorem State.keeps_resume (s : State) (b : BankId) (h : (s.bank b).resumeDue = true) :
    s.Keeps (s.modBank b Bank.resume) := by
  obtain ⟨op, hw, hr, ho, -⟩ := (Bank.resumeDue_eq_true _).1 h
  refine s.keeps_modBank b _ (fun hl => ?_) ?_
  · simp_all [Bank.resume, Bank.legal]
  · simp only [Bank.resume, hw]

/-- R7: a read that ends leaves a legal bank legal. -/
theorem Bank.legal_endRead (k : Bank) (op : ReadOperation) (h : k.legal = true) : (k.endRead op).legal = true :=
  Bank.legal_of_same_write (k := k) rfl rfl (.inr ⟨fun _ => rfl, id⟩) h

theorem State.keeps_decideArm (s : State) (p : Port) (v : VerifyRecord) (a : Arming) (digest : Word) :
    s.Keeps (s.decideArm p v a digest) := by
  unfold State.decideArm
  split
  · exact s.keeps_completeBare p _
  · split
    · exact s.keeps_completeBare p _
    · split
      · exact s.keeps_completeBare p _
      · exact (s.keeps_modPort _ _ rfl rfl).trans (State.keeps_completeBare _ p _)

theorem State.keeps_returnChunk (s : State) (b : BankId) (p : Port) (v : VerifyRecord) (register : Word) :
    s.Keeps (s.returnChunk b p v register) := by
  unfold State.returnChunk
  split
  · exact (s.keeps_setVerify p _).trans (State.keeps_join _ b p _)
  · split
    · exact s.keeps_complete p _ _ _
    · exact s.keeps_decideArm p v _ _

theorem State.keeps_readComplete (s : State) (b : BankId) (op : ReadOperation) : s.Keeps (s.readComplete b op) := by
  have hend : s.Keeps (s.modBank b fun k => k.endRead op) := s.keeps_modBank b _ (Bank.legal_endRead _ op) rfl
  have hdrawn : ∀ n, s.Keeps { (s.modBank b fun k => k.endRead op) with freeCount := n } := fun n =>
    ⟨hend.array, hend.banks⟩
  unfold State.readComplete
  dsimp only
  split
  · exact hend
  · split
    · exact (hdrawn _).trans (State.keeps_complete _ _ _ _ _)
    · split
      · exact hdrawn _
      · exact (hdrawn _).trans (State.keeps_returnChunk _ b _ _ _)

theorem State.keeps_nextErase (s : State) (b : BankId) (p : Port) (chunk : Option Nat) :
    s.Keeps (s.nextErase b p chunk) := by
  unfold State.nextErase
  split
  · split
    · exact s.keeps_join b p _
    · exact s.keeps_completeBare p _
  · exact s.keeps_completeBare p _

/-! ## The Configuration Store -/

theorem State.keeps_completeWrite (s : State) (image : ConfigImage) : s.Keeps (s.completeWrite image) := by
  have hstored : ∀ block writer,
      s.Keeps (({ s with block := block, writer := writer } : State).raise s.admin .storeDone) := fun block writer => State.Keeps.trans (t := { s with block := block, writer := writer }) ⟨rfl, id⟩
      (State.keeps_raise _ _ _)
  unfold State.completeWrite
  dsimp only
  split
  · exact (hstored _ _).trans (State.keeps_completeBare _ _ _)
  · exact hstored _ _

theorem State.keeps_fillPort (s : State) (image : ConfigImage) (p : Port) : s.Keeps (s.fillPort image p) :=
  s.keeps_modPort p _ rfl rfl

theorem State.keeps_fillTables (s : State) (image : ConfigImage) : s.Keeps (s.fillTables image) :=
  State.Keeps.trans (t := { s with regions := image.regions.map RegionEntry.stored }) ⟨rfl, id⟩
    (State.keeps_foldl _ (fun u p => u.keeps_fillPort image p) _ _)

theorem State.keeps_loadTables (s : State) : s.Keeps s.loadTables := by
  have hpulses : ∀ u : State, s.Keeps u →
      s.Keeps (allPorts.foldl (fun v p => v.pulseStart p none) { u with startUp := .ready }) := fun u hu =>
    State.Keeps.trans (t := { u with startUp := .ready }) ⟨hu.array, hu.banks⟩
      (State.keeps_foldl _ (fun v p => v.keeps_pulseStart p none) _ _)
  unfold State.loadTables
  refine hpulses _ ?_
  split
  · exact s.keeps_fillTables _
  · exact (s.keeps_fillTables _).trans (State.keeps_raise _ _ _)

/-! ## The end of an event -/

theorem State.keeps_internalStep {s t : State} (h : s.internalStep = some t) : s.Keeps t := by
  rcases State.internalStep_cases h with ⟨p, -, rfl⟩ | ⟨-, rfl⟩ | ⟨b, hb⟩
  · exact s.keeps_present p
  · exact ⟨rfl, id⟩
  · rcases hb with ⟨op, ho, rfl⟩ | ⟨-, p, c, hg, rfl⟩ | ⟨-, -, hs, rfl⟩ | ⟨-, -, -, hr, rfl⟩
    · exact s.keeps_startWrite b op ho
    · exact s.keeps_grant b p c hg
    · exact s.keeps_requestSuspend b ((Bool.and_eq_true _ _).mp hs).1
    · exact s.keeps_resume b hr

theorem State.keeps_refreshLed (s : State) : s.Keeps s.refreshLed := by
  obtain ⟨l, h⟩ := s.refreshLed_eq
  rw [h]
  exact ⟨rfl, id⟩

/-- What is due inside an event keeps the array and the banks legal. -/
theorem State.keeps_finish (s : State) : s.Keeps s.finish :=
  State.finish_induction s.Keeps (fun _ _ h hi => h.trans (State.keeps_internalStep hi))
    (fun _ h => h.trans (State.keeps_refreshLed _)) s (.refl s)

end Sys2Proof.Machine
end

section
/-! PROOFS. The array and the banks over every command: what changes the array, its canonical form, and the legality of
slots, counts and streams. -/

namespace Sys2Proof.Machine

open Sys2Proof

/-! ## Transactions and streams -/

/-- R88: the transaction of a port may change freely where the port has no open stream, before and after. -/
theorem State.banksLegal_modPort_of_no_stream {s : State} (h : s.banksLegal) (p : Port) (f : PortState → PortState)
    (hn : (s.port p).stream = none) (hs : (f (s.port p)).stream = none) : (s.modPort p f).banksLegal :=
  ((State.banksLegal_but h p).modPort f (hs.trans hn.symm)).legal
    (PortState.streamLegal_of_none _ (by rw [State.port_modPort_self]; exact hs))

/-- R88: a port with no transaction in progress has no open stream. -/
theorem State.stream_of_no_transaction {s : State} (h : s.banksLegal) {p : Port} (ht : (s.port p).transaction = none) :
    (s.port p).stream = none :=
  PortState.stream_eq_none _ (h.2 p) fun tr d htr => by simp [ht] at htr

/-- R88: a port whose transaction has no decision yet has no open stream. -/
theorem State.stream_of_undecided {s : State} (h : s.banksLegal) {p : Port} {tr : Transaction}
    (ht : (s.port p).transaction = some tr) (hd : tr.decision = none) : (s.port p).stream = none :=
  PortState.stream_eq_none _ (h.2 p) fun tr' d htr _ hdec => by
    obtain rfl : tr = tr' := Option.some.inj (ht.symm.trans htr)
    rw [hd] at hdec
    cases hdec

/-- R147: a transaction that takes its frame is live and undecided. -/
theorem Transaction.isFraming_iff (tr : Transaction) :
    tr.isFraming = true ↔ tr.isLive = true ∧ tr.decision = none := by
  simp [Transaction.isFraming]

/-- R147: a port that takes a frame has a live, undecided transaction. -/
theorem PortState.takesFrame_transaction {x : PortState} {frame : List Byte} (h : x.takesFrame frame = true) :
    ∃ tr, x.transaction = some tr ∧ tr.isLive = true ∧ tr.decision = none := by
  obtain ⟨tr, htr, hf⟩ := (Option.any_eq_true _ _).1 h
  obtain ⟨hlive, hd⟩ := tr.isFraming_iff.1 ((Bool.and_eq_true _ _).mp hf).1
  exact ⟨tr, htr, hlive, hd⟩

/-- R89: a stream's next address stays in its region. -/
theorem Stream.advance_in_region (st : Stream) (n : Nat) (h : st.base ≤ st.next ∧ st.next < st.base + st.size) :
    (st.advance n).base ≤ (st.advance n).next ∧ (st.advance n).next < (st.advance n).base + (st.advance n).size := by
  have hlt : (st.next - st.base + n) % st.size < st.size := Nat.mod_lt _ (by omega)
  exact ⟨Nat.le_add_right _ _, Nat.add_lt_add_left hlt _⟩

/-- R88, R89: bytes counted, and a stream advanced, leave an open stream legal. -/
theorem PortState.streamLegal_clocked {x y : PortState} {tr : Transaction} (n : Nat)
    (ht : x.transaction = some tr) (ht' : y.transaction = some { tr with taken := n })
    (hs : y.stream = x.stream ∨ ∃ st m, x.stream = some st ∧ y.stream = some (st.advance m))
    (h : x.streamLegal = true) : y.streamLegal = true := by
  rw [PortState.streamLegal_iff] at h ⊢
  have hgo : ∀ st, x.stream = some st → ∃ tr' d, y.transaction = some tr' ∧ tr'.isLive = true
      ∧ tr'.decision = some d ∧ d.effect = .stream := by
    intro st hst
    obtain ⟨-, tr', d, htr, hlive, hd, he⟩ := h st hst
    obtain rfl : tr = tr' := Option.some.inj (ht.symm.trans htr)
    exact ⟨_, d, ht', hlive, hd, he⟩
  rcases hs with hs | ⟨st, m, hst, hs⟩
  · intro st hst
    rw [hs] at hst
    exact ⟨(h st hst).1, hgo st hst⟩
  · intro st' hst'
    obtain rfl : st.advance m = st' := Option.some.inj (hs.symm.trans hst')
    exact ⟨st.advance_in_region m (h st hst).1, hgo st hst⟩

/-- A change of a port that keeps the bank of its stream, and its stream legal. -/
theorem State.banksLegal_modPort {s : State} (h : s.banksLegal) (p : Port) (f : PortState → PortState)
    (hc : ∀ b, (f (s.port p)).streamCount b = (s.port p).streamCount b)
    (hl : (f (s.port p)).streamLegal = true) : (s.modPort p f).banksLegal := by
  have hport := s.port_modPort p
  refine ⟨fun b => ⟨(h.1 b).1, (h.1 b).2.trans (State.streamsAt_congr b fun q => ?_).symm⟩, fun q => ?_⟩
  · rw [hport]; split
    · next e => rw [e]; exact hc b
    · rfl
  · rw [hport]; split
    · exact hl
    · exact h.2 q

/-- R145: a transaction that begins where none is in progress keeps the array and the banks legal. -/
theorem State.keeps_beginTransaction (s : State) (p : Port) (tr : Transaction) (n : Nat)
    (hn : (s.port p).transaction = none) : s.Keeps (s.beginTransaction p tr n) := by
  refine ⟨rfl, fun h => ?_⟩
  have hs := State.stream_of_no_transaction h hn
  exact State.banksLegal_modPort_of_no_stream h p _ hs hs

/-- R145: clocked bytes keep the array and the banks legal. -/
theorem State.keeps_clockOut (s : State) (p : Port) (n : Nat) : s.Keeps (s.clockOut p n) := by
  refine ⟨(s.clockOut_onWire p n).array, fun h => ?_⟩
  rcases s.clockOut_cases p n with he | ⟨tr, bytes, htr, he⟩ | ⟨tr, head, st, m, htr, hst, he⟩
  · rw [he]; exact h
  · rw [he]
    exact State.banksLegal_modPort h p _ (fun _ => rfl)
      (PortState.streamLegal_clocked _ htr rfl (.inl rfl) (h.2 p))
  · rw [he]
    have hadvance := State.banksLegal_modPort h p
      (fun x => { x with
        stream := some (st.advance m)
        transaction := some { tr with
          taken := tr.taken + (head ++ (s.sample (st.addresses m) s.freeCount).1).length }
        sdo := x.sdo ++ (head ++ (s.sample (st.addresses m) s.freeCount).1) })
      (fun b => by simp [PortState.streamCount, hst, Stream.advance])
      (PortState.streamLegal_clocked _ htr rfl (.inr ⟨st, m, hst, rfl⟩) (h.2 p))
    rw [State.sendStream, State.send, State.modPort_modPort]
    exact hadvance

theorem State.keeps_passFrame (s : State) (p : Port) (n : Nat) : s.Keeps (s.passFrame p n) := by
  unfold State.passFrame
  split
  · exact .refl s
  · exact s.keeps_clockOut p n

/-- R150: a frame decided with no stream keeps the array and the banks legal. -/
theorem State.keeps_endFrame (s : State) (p : Port) (frame : List Byte) (d : Decision) (n : Nat) :
    s.Keeps (s.endFrame p frame d n) := by
  unfold State.endFrame
  split
  · next hf =>
    obtain ⟨tr, htr, -, hd⟩ := PortState.takesFrame_transaction hf
    have hdecide : s.Keeps (s.decideFrame p frame d) := by
      refine ⟨(s.decideFrame_onWire p frame d).array, fun h => ?_⟩
      have hn := State.stream_of_undecided h htr hd
      simp only [State.decideFrame, htr]
      exact State.banksLegal_modPort_of_no_stream h p _ hn hn
    exact hdecide.trans (State.keeps_clockOut _ p n)
  · exact s.keeps_passFrame p _

/-- R147: further bytes of a transaction keep the array and the banks legal. -/
theorem State.keeps_takeBytes (s : State) (p : Port) (tr : Transaction) (bytes : List Byte)
    (ht : (s.port p).transaction = some tr) : s.Keeps (s.takeBytes p tr bytes) := by
  unfold State.takeBytes
  split
  · next hf =>
    refine ⟨rfl, fun h => ?_⟩
    have hn := State.stream_of_undecided h ht (tr.isFraming_iff.1 hf).2
    exact State.banksLegal_modPort_of_no_stream h p _ hn hn
  · exact s.keeps_clockOut p _

/-- R151: an effect taken at the deselect keeps the array and the banks legal. -/
theorem State.keeps_takeEffect (s : State) (p : Port) (silenced : Bool) (answered : Nat) (e : Effect) :
    s.Keeps (s.takeEffect p silenced answered e) := by
  unfold State.takeEffect
  split
  · exact .refl s
  · exact s.keeps_modPort p _ rfl rfl
  · exact s.keeps_modPort p _ rfl rfl
  · exact s.keeps_modPort p _ rfl rfl
  · exact s.keeps_modPort p _ rfl rfl
  · exact s.keeps_modPort p _ rfl rfl
  · exact s.keeps_modPort p _ rfl rfl
  · exact s.keeps_confirm p
  · exact s.keeps_serviceCode p _
  · exact s.keeps_pulseStart p _
  · exact .refl s
  · split
    · exact s.keeps_modPort p _ rfl rfl
    · exact .refl s
  · exact .refl s

/-- R92, R151, R152: a transaction ends with its stream closed. -/
theorem State.keeps_endTransaction (s : State) (p : Port) (tr : Transaction) (ht : (s.port p).transaction = some tr) :
    s.Keeps (s.endTransaction p tr) := by
  have hgone : (s.port p).stream = none →
      s.Keeps (s.modPort p fun x => { x with selected := false, transaction := none }) := fun hn =>
    ⟨rfl, fun h => State.banksLegal_modPort_of_no_stream h p _ hn hn⟩
  unfold State.endTransaction
  dsimp only
  cases hlive : tr.isLive with
  | false =>
    refine ⟨rfl, fun h => (hgone (PortState.stream_eq_none _ (h.2 p) fun tr' d htr hl => ?_)).banks h⟩
    obtain rfl : tr = tr' := Option.some.inj (ht.symm.trans htr)
    rw [hlive] at hl
    cases hl
  | true =>
    cases hd : tr.decision with
    | none =>
      refine ⟨rfl, fun h => ?_⟩
      exact ((hgone (State.stream_of_undecided h ht hd)).trans (State.keeps_raise _ p .frameAbort)).banks h
    | some d =>
      refine State.Keeps.trans ⟨?_, fun h => ?_⟩ (State.keeps_takeEffect _ p tr.silenced _ d.effect)
      · exact State.array_closeStream _ p
      · exact ((State.banksLegal_but h p).modPort _ rfl).closeStream

/-- R153: a cut with the close of the port's stream. -/
theorem State.keeps_cut_close (s : State) (p : Port) : s.Keeps ((s.cutTransaction p).closeStream p) := by
  obtain ⟨f, hf, hs⟩ := s.cutTransaction_eq p
  rw [hf]
  exact ⟨State.array_closeStream _ p, fun h => ((State.banksLegal_but h p).modPort f hs).closeStream⟩

theorem State.keeps_deselect (s : State) (p : Port) : s.Keeps (s.deselect p) := by
  unfold State.deselect
  split
  · exact .refl s
  · next tr ht => exact s.keeps_endTransaction p tr ht

/-! ## A stream that opens (R86, R88) -/

/-- R86: a stream attempt is answered GO where the bank's write slot permits a read, at an address in the region. -/
theorem State.attempt_go {s : State} {p : Port} {a : LogicalAddress} {st : Stream} (h : s.attempt p a = .go st) :
    (s.bank st.bank).writeSlot.permitsRead = true ∧ st.base ≤ st.next ∧ st.next < st.base + st.size := by
  unfold State.attempt at h
  split at h
  · cases h
  · cases h
  · next r range offset hacc =>
    split at h
    · next hp =>
      cases h
      refine ⟨hp, Nat.le_add_right _ _, Nat.add_lt_add_left ?_ _⟩
      unfold State.access at hacc
      split at hacc
      · cases hacc
      · split at hacc
        · cases hacc
        · split at hacc
          · cases hacc
          · split at hacc
            · cases hacc
            · next hd => cases hacc; simpa [inRegion] using hd
    · cases h

/-- R88: a stream opened at a bank whose write slot permits a read leaves the banks legal but for its port. -/
theorem State.banksLegal_openStream {s : State} (h : s.banksLegal) (p : Port) (st : Stream)
    (hn : (s.port p).stream = none) (hp : (s.bank st.bank).writeSlot.permitsRead = true) :
    (s.openStream p st).BanksLegalBut p := by
  have hcount : ∀ b, (s.openStream p st).streamsAt b = s.streamsAt b + if st.bank = b then 1 else 0 := by
    intro b
    have hm := s.streamsAt_modPort p (fun x => { x with stream := some st }) b
    have hold : (s.port p).streamCount b = 0 := by simp [PortState.streamCount, hn]
    have hnew : ({ s.port p with stream := some st } : PortState).streamCount b = if st.bank = b then 1 else 0 := by
      simp [PortState.streamCount]
    rw [hold, hnew] at hm
    exact hm
  have hlegal : ({ s.bank st.bank with openStreams := (s.bank st.bank).openStreams + 1 } : Bank).legal = true :=
    Bank.legal_of_same_write (k := s.bank st.bank) rfl rfl (.inl hp) (h.1 st.bank).1
  have hbank : ∀ b, (s.openStream p st).bank b
      = if b = st.bank then { s.bank st.bank with openStreams := (s.bank st.bank).openStreams + 1 } else s.bank b :=
    fun b => State.bank_modBank _ st.bank b _
  refine ⟨fun b => ?_, fun b => ?_, fun q hq => ?_⟩
  · rw [hbank]; split
    · exact hlegal
    · exact (h.1 b).1
  · rw [hbank, hcount, ← (h.1 b).2]
    split
    · next e => rw [if_pos e.symm, e]
    · next e => rw [if_neg fun e' => e e'.symm, Nat.add_zero]
  · have hport : (s.openStream p st).port q = s.port q := by
      rw [State.openStream, State.port_modBank, State.port_modPort, if_neg hq]
    rw [hport]; exact h.2 q

/-- R88: a DIRECT_READ answered GO keeps the array and the banks legal: its transaction is live and decided GO. -/
theorem State.keeps_go (s : State) (p : Port) (frame answer : List Byte) (st : Stream) (n : Nat)
    (hf : (s.port p).takesFrame frame = true) (hp : (s.bank st.bank).writeSlot.permitsRead = true)
    (hin : st.base ≤ st.next ∧ st.next < st.base + st.size) :
    s.Keeps ((s.openStream p st).endFrame p frame ⟨answer, .stream⟩ n) := by
  obtain ⟨tr, htr, hlive, hd⟩ := PortState.takesFrame_transaction hf
  have hport : (s.openStream p st).port p = { s.port p with stream := some st } := by
    rw [State.openStream, State.port_modBank, State.port_modPort_self]
  have htakes : ((s.openStream p st).port p).takesFrame frame = true := by rw [hport]; exact hf
  have htr' : ((s.openStream p st).port p).transaction = some tr := by rw [hport]; exact htr
  have hdecide : s.Keeps ((s.openStream p st).decideFrame p frame ⟨answer, .stream⟩) := by
    refine ⟨rfl.trans (State.decideFrame_onWire _ p frame _).array, fun h => ?_⟩
    have hopen := State.banksLegal_openStream h p st (State.stream_of_undecided h htr hd) hp
    simp only [State.decideFrame, htr']
    refine (hopen.modPort _ rfl).legal ?_
    rw [State.port_modPort_self, hport, PortState.streamLegal_iff]
    intro st' hst'
    obtain rfl : st = st' := Option.some.inj hst'
    exact ⟨hin, _, _, rfl, hlive, rfl, rfl⟩
  unfold State.endFrame
  rw [if_pos htakes]
  exact hdecide.trans (State.keeps_clockOut _ p n)

/-! ## Resets -/

/-- R20: the banks after a reset of the whole part are legal. -/
theorem State.banksLegal_hardReset (s : State) (u : StartUp) (causes : Port → Byte) :
    (s.hardReset u causes).banksLegal := by
  have hstream : ∀ p, ((s.hardReset u causes).port p).stream = none := fun p => by rw [State.port_hardReset]; rfl
  refine ⟨fun b => ?_, fun p => PortState.streamLegal_of_none _ (hstream p)⟩
  have hcount : (s.hardReset u causes).streamsAt b = 0 := by
    simp only [State.streamsAt_eq, PortState.streamCount, hstream, Option.any_none, Bool.false_eq_true, if_false]
  rw [State.bank_hardReset, hcount]
  exact ⟨rfl, rfl⟩

/-- R18, Table 1-7: a cut where a page or sector is under way. -/
theorem cutWrite_of_range (m : Memory) (n : Nat) (w : WriteSlot) (first length : Nat)
    (h : w.cutRange = some (first, length)) : cutWrite m n w = (m.scramble first n length, n + length) := by
  unfold WriteSlot.cutRange at h
  split at h <;> cases h <;> rfl

/-- R18: a cut where nothing is under way. -/
theorem cutWrite_of_no_range (m : Memory) (n : Nat) (w : WriteSlot) (h : w.cutRange = none) :
    cutWrite m n w = (m, n) := by
  cases w with
  | none => rfl
  | busy st op =>
    obtain ⟨owner, target, chunk⟩ := op
    cases target <;> cases st <;> simp_all [WriteSlot.cutRange, cutWrite]

/-- R18: a cut of a bank keeps the array canonical. -/
theorem cutWrite_wf (m : Memory) (n : Nat) (w : WriteSlot) (h : Memory.wf m) : Memory.wf (cutWrite m n w).1 := by
  cases hr : w.cutRange with
  | none => rw [cutWrite_of_no_range m n w hr]; exact h
  | some r => rw [cutWrite_of_range m n w r.1 r.2 hr]; exact Memory.wf_scramble m r.1 n r.2 h

/-! ## The end of a write -/

/-- R10: the array after a program. -/
theorem State.array_programComplete (s : State) (b : BankId) (owner : Owner) (page start : Nat) (data : List Byte) :
    (s.programComplete b owner page start data).array = s.array.program page start data := by
  unfold State.programComplete
  cases owner with
  | orphan => rfl
  | port p => exact (State.keeps_complete _ p _ _ _).array

/-- R11: the array after a sector erase. -/
theorem State.array_eraseComplete (s : State) (b : BankId) (owner : Owner) (sector : Nat) (chunk : Option Nat) :
    (s.eraseComplete b owner sector chunk).array
      = s.array.erase (sector * Config.sectorBytes) Config.sectorBytes := by
  unfold State.eraseComplete
  cases owner with
  | orphan => rfl
  | port p => exact (State.keeps_nextErase _ b p chunk).array

/-- R10: the end of a program leaves the banks legal. -/
theorem State.banksLegal_programComplete {s : State} (h : s.banksLegal) (b : BankId) (op : WriteOperation)
    (owner : Owner) (page start : Nat) (data : List Byte) (hw : (s.bank b).writeSlot = .busy .programming op) :
    (s.programComplete b owner page start data).banksLegal := by
  have hslot : s.Keeps (s.modBank b fun k => { k with writeSlot := .none }) :=
    s.keeps_modBank b _ (fun hl => by simp_all [Bank.legal]) rfl
  unfold State.programComplete
  cases owner with
  | orphan => exact hslot.banks h
  | port p => exact (State.keeps_complete _ p _ _ _).banks (hslot.banks h)

/-- R11: the end of a sector erase leaves the banks legal. -/
theorem State.banksLegal_eraseComplete {s : State} (h : s.banksLegal) (b : BankId) (owner : Owner) (sector : Nat)
    (chunk : Option Nat) : (s.eraseComplete b owner sector chunk).banksLegal := by
  have hslot : s.Keeps (s.modBank b fun k => { k with writeSlot := .none, suspendCount := 0 }) :=
    s.keeps_modBank b _ (fun _ => rfl) rfl
  unfold State.eraseComplete
  cases owner with
  | orphan => exact hslot.banks h
  | port p => exact (State.keeps_nextErase _ b p chunk).banks (hslot.banks h)

/-! ## Every command -/

/-- What an event keeps of the array and the banks, unless it is the end of a write. -/
theorem State.EventEffect.keeps_or_endsWrite {s u : State} {c : Instr} (h : s.EventEffect c u) :
    s.Keeps u
    ∨ (∃ b op owner page start data, c = .programComplete b ∧ (s.bank b).writeSlot = .busy .programming op
        ∧ u = s.programComplete b owner page start data)
    ∨ ∃ b owner sector chunk, c = .sectorEraseComplete b ∧ u = s.eraseComplete b owner sector chunk := by
  cases h with
  | load => exact .inl s.keeps_loadTables
  | deselect p bytes tr ht _ => exact .inl ((s.keeps_takeBytes p tr bytes ht).trans (State.keeps_deselect _ p))
  | holdLimit p bytes tr ht _ _ => exact .inl ((s.keeps_takeBytes p tr bytes ht).trans (State.keeps_cut_close _ p))
  | present p _ => exact .inl (s.keeps_present p)
  | expire p b cur _ _ _ => exact .inl ((s.keeps_setCandidate b p none).trans (State.keeps_completeBare _ p _))
  | grantRead b p entry hg _ => exact .inl (s.keeps_grant b p entry hg)
  | grantWrite b p entry hg _ => exact .inl (s.keeps_grant b p entry hg)
  | startWrite b op ho => exact .inl (s.keeps_startWrite b op ho)
  | suspendComplete b op hw => exact .inl (s.keeps_suspendComplete b op hw)
  | resume b hr => exact .inl (s.keeps_resume b hr)
  | readComplete b op _ => exact .inl (s.keeps_readComplete b op)
  | programComplete b owner page start data chunk hw => exact .inr (.inl ⟨b, _, owner, page, start, data, rfl, hw, rfl⟩)
  | eraseComplete b st owner sector chunk _ _ => exact .inr (.inr ⟨b, owner, sector, chunk, rfl, rfl⟩)
  | pulseRelease p _ => exact .inl (s.keeps_pulseRelease p)
  | bootTimerExpiry p _ => exact .inl (s.keeps_bootTimerExpiry p)
  | watchdogExpiry p _ => exact .inl (s.keeps_pulseStart p _)
  | beginWrite _ => exact .inl ⟨rfl, id⟩
  | completeWrite image _ => exact .inl (s.keeps_completeWrite image)

/-- What an answer keeps of the array and the banks, unless it is a reset of the whole part or the end of a write. -/
theorem State.Answer.keeps_or_writes {s t : State} {c : Instr} (h : s.Answer c t) :
    s.Keeps t
    ∨ (∃ u causes, (c = .powerOnReset ∨ c = .deviceReset ∨ c = .lossOfPower) ∧ t = (s.hardReset u causes).refreshLed)
    ∨ (∃ b op owner page start data, c = .programComplete b ∧ (s.bank b).writeSlot = .busy .programming op
        ∧ t = (s.programComplete b owner page start data).finish)
    ∨ ∃ b owner sector chunk, c = .sectorEraseComplete b ∧ t = (s.eraseComplete b owner sector chunk).finish := by
  cases h with
  | noEvent => exact .inl (.refl s)
  | powerOnReset => exact .inr (.inl ⟨_, _, .inl rfl, rfl⟩)
  | deviceReset => exact .inr (.inl ⟨_, _, .inr (.inl rfl), rfl⟩)
  | lossOfPower => exact .inr (.inl ⟨_, _, .inr (.inr rfl), rfl⟩)
  | startUpBegin => exact .inl ⟨rfl, id⟩
  | selectUnpowered start _ _ => exact .inl (s.keeps_modPort _ _ rfl rfl)
  | deselectIdle p bytes _ => exact .inl (s.keeps_modPort _ _ rfl rfl)
  | beginsIgnored start hn _ _ => exact .inl (s.keeps_beginTransaction _ _ _ hn)
  | beginsFraming start hn _ _ _ => exact .inl (s.keeps_beginTransaction _ _ _ hn)
  | frame _ p bytes d n _ => exact .inl (s.keeps_endFrame p bytes d n)
  | notReady p a n b _ _ => exact .inl ((s.keeps_attemptSuspend b).trans (State.keeps_endFrame _ p _ _ n))
  | go p a n st hf ha =>
    obtain ⟨hslot, hin⟩ := State.attempt_go ha
    exact .inl (s.keeps_go p _ _ st n hf hslot hin)
  | pass p a n _ => exact .inl (s.keeps_passFrame p _)
  | untimed p bytes tr ht _ _ => exact .inl (s.keeps_takeBytes p tr bytes ht)
  | markExpired p place q _ _ => exact .inl (s.keeps_modPort p _ rfl rfl)
  | watchdogHalf p => exact .inl (s.keeps_watchdogHalf p)
  | event _ u hu =>
    rcases hu.keeps_or_endsWrite with hk | ⟨b, op, owner, page, start, data, hc, hw, rfl⟩
      | ⟨b, owner, sector, chunk, hc, rfl⟩
    · exact .inl (hk.trans u.keeps_finish)
    · exact .inr (.inr (.inl ⟨b, op, owner, page, start, data, hc, hw, rfl⟩))
    · exact .inr (.inr (.inr ⟨b, owner, sector, chunk, hc, rfl⟩))

/-- Settles O52: every answer but a reset's and the end of a write keeps the array. -/
theorem onlyWritesAndCutsChangeTheArray : Obligations.OnlyWritesAndCutsChangeTheArray := by
  intro c s t h hon hdev hloss hp he
  rcases (exec_answer c s t h).keeps_or_writes with hk | ⟨_, _, hc, -⟩ | ⟨b, _, _, _, _, _, hc, -⟩ | ⟨b, _, _, _, hc, -⟩
  · exact hk.array
  · simp [hon, hdev, hloss] at hc
  · exact absurd hc (hp b)
  · exact absurd hc (he b)

/-- Every answer keeps the canonical form of the array: cuts, programs and erases keep it, and nothing else changes the
array. -/
theorem State.Answer.arrayCanonical {s t : State} {c : Instr} (h : s.Answer c t) (hs : s.arrayCanonical) :
    t.arrayCanonical := by
  rw [State.arrayCanonical] at hs ⊢
  rcases h.keeps_or_writes with hk | ⟨u, causes, -, rfl⟩ | ⟨b, _, owner, page, start, data, -, -, rfl⟩
    | ⟨b, owner, sector, chunk, -, rfl⟩
  · rw [hk.array]; exact hs
  · rw [State.array_refreshLed]; exact cutWrite_wf _ _ _ (cutWrite_wf _ _ _ hs)
  · rw [(State.keeps_finish _).array, State.array_programComplete]; exact Memory.wf_program _ _ _ _ hs
  · rw [(State.keeps_finish _).array, State.array_eraseComplete]; exact Memory.wf_erase _ _ _ hs

/-- Every answer leaves legal banks legal. -/
theorem State.Answer.banksLegal {s t : State} {c : Instr} (h : s.Answer c t) (hs : s.banksLegal) : t.banksLegal := by
  rcases h.keeps_or_writes with hk | ⟨u, causes, -, rfl⟩ | ⟨b, op, owner, page, start, data, -, hw, rfl⟩
    | ⟨b, owner, sector, chunk, -, rfl⟩
  · exact hk.banks hs
  · exact (State.keeps_refreshLed _).banks (s.banksLegal_hardReset u causes)
  · exact (State.keeps_finish _).banks (State.banksLegal_programComplete hs b op owner page start data hw)
  · exact (State.keeps_finish _).banks (State.banksLegal_eraseComplete hs b owner sector chunk)

/-- Settles O53, by the answers of all commands. -/
theorem arrayCanonicalFormIsKept : Obligations.ArrayCanonicalFormIsKept := by
  intro s t hs hstep
  rcases step_answer s t hstep with rfl | ⟨c, rest, -, hexec⟩
  · exact hs
  · exact (exec_answer c _ t hexec).arrayCanonical hs

/-- Settles O57, by the answers of all commands. -/
theorem banksStayLegal : Obligations.BanksStayLegal := by
  intro s t hs hstep
  rcases step_answer s t hstep with rfl | ⟨c, rest, -, hexec⟩
  · exact hs
  · exact (exec_answer c _ t hexec).banksLegal hs

end Sys2Proof.Machine
end

section
/-! PROOFS. The resets of the whole part: what they leave, what they cut, and the invariants right after power-on. -/

namespace Sys2Proof.Machine

open Sys2Proof

/-! ## What the three resets leave -/

/-- R18, R20, R139, R166: each reset of the whole part is the one reset, with its start-up state and cause flags. -/
theorem exec_reset (c : Instr) (s : State)
    (hc : c = .powerOnReset ∨ c = .lossOfPower ∨ c = .deviceReset ∧ s.startUp ≠ .unpowered) :
    ∃ u causes, exec c s = .next (s.hardReset u causes).refreshLed
      ∧ u = (if c = .lossOfPower then .unpowered else .resetTaken)
      ∧ ∀ p, causes p
          = if c = .powerOnReset then 0x01 else if c = .deviceReset then (s.port p).causes ||| 0x02 else 0 := by
  rcases hc with rfl | rfl | ⟨rfl, hu⟩
  · exact ⟨_, _, rfl, rfl, fun _ => rfl⟩
  · exact ⟨_, _, rfl, rfl, fun _ => rfl⟩
  · exact ⟨_, _, if_neg hu, rfl, fun _ => rfl⟩

/-- R129: STLED's condition after a reset: off without power, steady otherwise. -/
theorem State.ledCondition_hardReset (s : State) (u : StartUp) (causes : Port → Byte)
    (hu : u = .unpowered ∨ u = .resetTaken) :
    (s.hardReset u causes).ledCondition = if u = .unpowered then .off else .steady := by
  have hs : (s.hardReset u causes).startUp = u := rfl
  rcases hu with rfl | rfl
  · simp [State.ledCondition, hs]
  · simp [State.ledCondition, hs, StartUp.isStartingUp]

/-- R113: MRST after a reset is asserted exactly while the part is starting up: no pulse lasts and no port is FAILED. -/
theorem State.mrstAsserted_hardReset (s : State) (u : StartUp) (causes : Port → Byte) (p : Port) :
    (s.hardReset u causes).refreshLed.mrstAsserted p = u.isStartingUp := by
  have hs : (s.hardReset u causes).startUp = u := rfl
  simp only [State.mrstAsserted, State.startUp_refreshLed, State.port_refreshLed, State.port_hardReset, hs]
  simp [State.resetPort, PortState.reset, Timer.isRunning]

/-- R162, R163: ATTN after a reset is not asserted, for no event is enabled. -/
theorem State.attnAsserted_hardReset (s : State) (u : StartUp) (causes : Port → Byte) (p : Port) :
    (s.hardReset u causes).refreshLed.attnAsserted p = false := by
  simp only [State.attnAsserted, State.port_refreshLed, State.port_hardReset]
  simp [State.resetPort, PortState.reset]

/-- R132, R139: the block after a reset: no image where a write was in progress. -/
theorem State.block_hardReset (s : State) (u : StartUp) (causes : Port → Byte) :
    (s.hardReset u causes).block = if s.writer.snapshot = none then s.block else none := by
  have h : (s.hardReset u causes).block = if s.writer.snapshot.isSome then none else s.block := rfl
  rw [h]
  cases s.writer.snapshot <;> rfl

/-- Settles O3: the three resets are one reset, read block by block. -/
theorem resetsGiveEveryBlockItsResetValues : Obligations.ResetsGiveEveryBlockItsResetValues := by
  intro c s hc
  obtain ⟨u, causes, hexec, hu, hcauses⟩ := exec_reset c s hc
  have hu' : u = .unpowered ∨ u = .resetTaken := by rw [hu]; split <;> simp
  have hstart : u = .unpowered ↔ c = .lossOfPower := by rw [hu]; split <;> simp_all
  refine ⟨_, hexec, fun b => ?_, fun p => ?_, fun n => ?_, ?_, ?_, ?_, ?_, ?_, fun p => ⟨?_, ?_⟩⟩
  · rw [State.bank_refreshLed, State.bank_hardReset]; rfl
  · rw [State.port_refreshLed, State.port_hardReset, hcauses]; rfl
  · rw [State.region_refreshLed, State.region_hardReset]
  · rw [State.writer_refreshLed]; rfl
  · rw [State.block_refreshLed, State.block_hardReset]
  · rw [State.startUp_refreshLed, ← hu]; rfl
  · rw [State.display_refreshLed, s.ledCondition_hardReset u causes hu']; simp only [hstart]
  · rw [State.admin_refreshLed]; rfl
  · rw [State.mrstAsserted_hardReset, Ne, ← hstart]
    rcases hu' with rfl | rfl <;> simp [StartUp.isStartingUp]
  · exact State.attnAsserted_hardReset s u causes p

/-! ## What a reset cuts (R18, R19) -/

/-- R18: whether the cut of a write slot leaves the byte at an address unspecified. -/
def WriteSlot.covers (w : WriteSlot) (a : Nat) : Bool :=
  w.cutRange.any fun r => decide (r.1 ≤ a) && decide (a < r.1 + r.2)

/-- The free byte that the cut of a write slot draws for the byte at an address, n drawn before. -/
def WriteSlot.draw (w : WriteSlot) (n a : Nat) : Nat := n + (a - (w.cutRange.getD (0, 0)).1)

/-- R18, R19: what a byte reads as after the cut of a write slot. -/
theorem read_cutWrite (m : Memory) (n : Nat) (w : WriteSlot) (a : Nat) (h : Memory.wf m) :
    (cutWrite m n w).1.read a = if w.covers a then Config.freeByte (w.draw n a) else m.read a := by
  cases hr : w.cutRange with
  | none => rw [cutWrite_of_no_range m n w hr]; simp [WriteSlot.covers, hr]
  | some r =>
    rw [cutWrite_of_range m n w r.1 r.2 hr]
    simp only [Memory.read_scramble m r.1 n r.2 a h, WriteSlot.covers, WriteSlot.draw, hr, Option.any_some,
      Option.getD_some, Bool.and_eq_true, decide_eq_true_eq]

/-- A cut draws free bytes beyond those drawn before. -/
theorem le_cutWrite (m : Memory) (n : Nat) (w : WriteSlot) : n ≤ (cutWrite m n w).2 := by
  cases hr : w.cutRange with
  | none => rw [cutWrite_of_no_range m n w hr]
  | some r => rw [cutWrite_of_range m n w r.1 r.2 hr]; exact Nat.le_add_right _ _

/-- The free byte drawn for a byte that a cut covers is one of those it draws. -/
theorem WriteSlot.draw_bounds (m : Memory) (n : Nat) (w : WriteSlot) (a : Nat) (h : w.covers a = true) :
    n ≤ w.draw n a ∧ w.draw n a < (cutWrite m n w).2 := by
  obtain ⟨r, hr, ha⟩ := (Option.any_eq_true _ _).1 h
  simp only [Bool.and_eq_true, decide_eq_true_eq] at ha
  rw [cutWrite_of_range m n w r.1 r.2 hr]
  simp only [WriteSlot.draw, hr, Option.getD_some]
  omega

/-- A cut draws a different free byte for each byte it covers. -/
theorem WriteSlot.draw_inj (n : Nat) (w : WriteSlot) (a b : Nat) (ha : w.covers a = true) (hb : w.covers b = true)
    (h : w.draw n a = w.draw n b) : a = b := by
  obtain ⟨r, hr, ha⟩ := (Option.any_eq_true _ _).1 ha
  simp only [WriteSlot.covers, hr, Option.any_some, Bool.and_eq_true, decide_eq_true_eq] at ha hb
  simp only [WriteSlot.draw, hr, Option.getD_some] at h
  omega

/-- R18: a cut of both banks covers what the cut of one of them covers. -/
theorem State.cutCovers_eq (s : State) (a : Nat) :
    s.cutCovers a = ((s.bank 0).writeSlot.covers a || (s.bank 1).writeSlot.covers a) := by
  simp [State.cutCovers, allBanks, WriteSlot.covers]

/-- The free bytes drawn once Bank 0 is cut. -/
def State.drawnAtBank0 (s : State) : Nat := (cutWrite s.array s.freeCount (s.bank 0).writeSlot).2

/-- The free byte that a reset draws for the byte at an address: the cut of Bank 1 comes last. -/
def State.drawn (s : State) (a : Nat) : Nat :=
  if (s.bank 1).writeSlot.covers a then (s.bank 1).writeSlot.draw s.drawnAtBank0 a
  else (s.bank 0).writeSlot.draw s.freeCount a

/-- R18, R19: what a byte reads as after the cut of both banks. -/
theorem State.read_cutArray (s : State) (h : s.arrayCanonical) (a : Nat) :
    s.cutArray.1.read a = if s.cutCovers a then Config.freeByte (s.drawn a) else s.array.read a := by
  have h1 : s.cutArray.1.read a = if (s.bank 1).writeSlot.covers a
      then Config.freeByte ((s.bank 1).writeSlot.draw s.drawnAtBank0 a)
      else (cutWrite s.array s.freeCount (s.bank 0).writeSlot).1.read a :=
    read_cutWrite _ _ _ a (cutWrite_wf _ _ _ h)
  rw [h1, read_cutWrite _ _ _ a h, s.cutCovers_eq, State.drawn]
  cases (s.bank 1).writeSlot.covers a <;> simp

/-- The free byte that a reset draws for a byte it cuts is one of those it draws. -/
theorem State.drawn_bounds (s : State) (a : Nat) (h : s.cutCovers a = true) :
    s.freeCount ≤ s.drawn a ∧ s.drawn a < s.cutArray.2 := by
  have hlow : s.freeCount ≤ s.drawnAtBank0 := le_cutWrite _ _ _
  have hhigh : s.drawnAtBank0 ≤ s.cutArray.2 := le_cutWrite _ _ _
  rw [s.cutCovers_eq, Bool.or_eq_true] at h
  unfold State.drawn
  split
  · next h1 =>
    obtain ⟨hl, hu⟩ := WriteSlot.draw_bounds (cutWrite s.array s.freeCount (s.bank 0).writeSlot).1 s.drawnAtBank0 _ a h1
    exact ⟨hlow.trans hl, hu⟩
  · next h1 =>
    obtain ⟨hl, hu⟩ := WriteSlot.draw_bounds s.array s.freeCount _ a (h.resolve_right h1)
    exact ⟨hl, hu.trans_le hhigh⟩

/-- A reset draws a different free byte for each byte it cuts. -/
theorem State.drawn_inj (s : State) (a b : Nat) (ha : s.cutCovers a = true) (hb : s.cutCovers b = true)
    (h : s.drawn a = s.drawn b) : a = b := by
  rw [s.cutCovers_eq, Bool.or_eq_true] at ha hb
  have hbounds0 := fun x hx => WriteSlot.draw_bounds s.array s.freeCount (s.bank 0).writeSlot x hx
  have hbounds1 := fun x hx => WriteSlot.draw_bounds s.array s.drawnAtBank0 (s.bank 1).writeSlot x hx
  unfold State.drawn at h
  split at h
  · next ha1 =>
    split at h
    · next hb1 => exact WriteSlot.draw_inj _ _ a b ha1 hb1 h
    · next hb1 =>
      have hlt := (hbounds0 b (hb.resolve_right hb1)).2
      have hge := (hbounds1 a ha1).1
      exact absurd (h ▸ hge) (Nat.not_le.2 hlt)
  · next ha1 =>
    split at h
    · next hb1 =>
      have hlt := (hbounds0 a (ha.resolve_right ha1)).2
      have hge := (hbounds1 b hb1).1
      exact absurd (h ▸ hge) (Nat.not_le.2 hlt)
    · next hb1 => exact WriteSlot.draw_inj _ _ a b (ha.resolve_right ha1) (hb.resolve_right hb1) h

/-- Settles O4: the three resets cut as one, and the draws of the two banks are told apart by their numbers. -/
theorem resetCutsTheWriteInProgress : Obligations.ResetCutsTheWriteInProgress := by
  intro c s hc hs
  obtain ⟨u, causes, hexec, -, -⟩ := exec_reset c s hc
  have harray : (s.hardReset u causes).refreshLed.array = s.cutArray.1 := State.array_refreshLed _
  have hcount : (s.hardReset u causes).refreshLed.freeCount = s.cutArray.2 := State.freeCount_refreshLed _
  refine ⟨_, hexec, s.drawn, fun a ha => ?_, fun a ha => ⟨?_, ?_⟩, s.drawn_inj⟩
  · rw [harray, s.read_cutArray hs, ha]; rfl
  · rw [harray, s.read_cutArray hs, ha]; rfl
  · rw [hcount]; exact s.drawn_bounds a ha

/-! ## Right after power-on -/

/-- Every bank right after power-on reset. -/
@[simp] theorem State.bank_reset (b : BankId) : State.reset.bank b = Bank.reset := by fin_cases b <;> rfl

/-- Every port right after power-on reset. -/
@[simp] theorem State.port_reset (p : Port) : State.reset.port p = PortState.reset 0x01 := by fin_cases p <;> rfl

/-- R140: nothing is due right after power-on reset, and STLED is steady. -/
theorem State.reset_atRest : State.reset.AtRest :=
  ⟨⟨fun p _ => by rw [State.port_reset]; rfl, fun _ => ⟨rfl, rfl⟩, fun b => by
    rw [State.bank_reset]; exact Bank.reset_nothingDue⟩, rfl⟩

/-- R20, R88: the banks right after power-on reset are legal. -/
theorem State.reset_banksLegal : State.reset.banksLegal := by
  refine ⟨fun b => ?_, fun p => PortState.streamLegal_of_none _ (by rw [State.port_reset]; rfl)⟩
  rw [State.bank_reset, State.streamsAt_eq]
  simp only [State.port_reset]
  exact ⟨rfl, rfl⟩

/-- R64: right after power-on reset no port stands at a bank. -/
theorem Bank.placesOf_reset (p : Port) : Bank.reset.placesOf p = 0 := by fin_cases p <;> rfl

/-- R48, R133: right after power-on reset no request stands anywhere. -/
theorem State.reset_requestsPlaced : State.reset.requestsPlaced := by
  refine ⟨fun p => ?_, fun b p => ?_, fun h => by cases h⟩
  · have hcur : (State.reset.port p).current = none := by rw [State.port_reset]; rfl
    have hplaces : State.reset.placesOf p = 0 := by
      simp only [State.placesOf, State.bank_reset, Bank.placesOf_reset]
    have hstores : State.reset.storesFor p = false := Bool.and_false _
    simp only [State.requestPlaced, hcur, hplaces, hstores]
    rfl
  · rw [State.verifyRecordKept, State.bank_reset, Bank.candidate_reset]
    exact ⟨fun h => (Bool.false_ne_true h).elim, fun h => (Bool.false_ne_true h).elim⟩

/-- Table 7-1, Table 7-2: a boot record after a reset is legal. -/
theorem PortState.reset_bootLegal (causes : Byte) : (PortState.reset causes).bootLegal := by
  simp [PortState.bootLegal, PortState.reset, StoredBoot.initial, Timer.isRunning, Watchdog.isRunning]

/-- R134: a snapshot's fields, port by port and region by region. -/
theorem State.snapshot_fields (s : State) :
    (∀ n : RegionId, s.snapshot.regions[n] = (s.region n).stored)
    ∧ (∀ p : Port, s.snapshot.windows[p] = (s.port p).windows)
    ∧ ∀ p : Port, s.snapshot.boot[p] = (s.port p).boot := by
  refine ⟨fun n => ?_, fun p => ?_, fun p => ?_⟩ <;> simp [State.snapshot, State.region, State.port]

/-- R132: the tables right after power-on reset are consistent: no region in use, no window bound, no record enabled. -/
theorem State.reset_snapshot_consistent : State.reset.snapshot.consistent = true := by
  obtain ⟨hregion, hwindow, hboot⟩ := State.reset.snapshot_fields
  have hunused : ∀ n, State.reset.region n = .unused := fun n => by simp [State.region, State.reset]
  have hunbound : ∀ w : Fin 4, (PortState.reset 0x01).windows[w] = none := fun w => by fin_cases w <;> rfl
  simp only [ConfigImage.consistent, hregion, hwindow, hboot, hunused, State.port_reset, hunbound, RegionEntry.stored,
    RegionEntry.range?]
  decide

/-- Settles O60: each invariant from what the reset state holds. -/
theorem resetHasEveryInvariant : Obligations.ResetHasEveryInvariant := by
  refine ⟨State.reset_array_wf, fun p => ?_, fun _ => ⟨State.bank_reset, rfl, fun p => ?_⟩,
    ⟨fun p => ?_, fun p _ => ?_⟩, ⟨State.reset_snapshot_consistent, rfl, rfl⟩, State.reset_banksLegal,
    State.reset_requestsPlaced, State.reset.quiet_iff.2 State.reset_atRest.1, State.reset_atRest.2, rfl⟩
  · rw [State.port_reset]; exact Nat.zero_le _
  · rw [State.port_reset]; exact ⟨rfl, rfl⟩
  · rw [State.port_reset]; exact PortState.reset_bootLegal _
  · rw [State.port_reset]; rfl

end Sys2Proof.Machine
end

section
/-! PROOFS. The events at a bank: the bytes of a read, the page of a program, the sector of an erase. -/

namespace Sys2Proof.Machine

open Sys2Proof

/-! ## The bytes of a read (R2, R89) -/

/-- The number of free bytes drawn before a place of a sample, n before the sample. -/
def State.drawnBefore (s : State) (as : List Nat) (n i : Nat) : Nat := n + (as.take i).countP s.underErase

/-- R2: a sample draws one free byte for each of its addresses under erase. -/
theorem State.sample_count (s : State) (as : List Nat) (n : Nat) :
    (s.sample as n).2 = n + as.countP s.underErase := by
  induction as generalizing n with
  | nil => rfl
  | cons a rest ih =>
    cases hu : s.underErase a with
    | true => simp only [State.sample, hu, if_true, ih, List.countP_cons]; omega
    | false => simp [State.sample, hu, ih]

/-- R2: the byte at a place of a sample: the next free byte under erase, the stored one elsewhere. -/
theorem State.sample_getElem? (s : State) (as : List Nat) (n i a : Nat) (h : as[i]? = some a) :
    (s.sample as n).1[i]?
      = some (if s.underErase a then Config.freeByte (s.drawnBefore as n i) else s.array.read a) := by
  induction as generalizing n i with
  | nil => simp at h
  | cons x rest ih =>
    cases i with
    | zero =>
      obtain rfl : x = a := by simpa using h
      cases hu : s.underErase x <;> simp [State.sample, hu, State.drawnBefore]
    | succ i =>
      have hi := fun m => ih m i (by simpa using h)
      cases hu : s.underErase x with
      | true =>
        have hn : s.drawnBefore (x :: rest) n (i + 1) = s.drawnBefore rest (n + 1) i := by
          simp only [State.drawnBefore, List.take_succ_cons, List.countP_cons, hu, if_true]; omega
        simp only [State.sample, hu, if_true, List.getElem?_cons_succ, hi, hn]
      | false =>
        have hn : s.drawnBefore (x :: rest) n (i + 1) = s.drawnBefore rest n i := by
          simp [State.drawnBefore, hu]
        simp [State.sample, hu, hi, hn]

/-- The draws of a sample rise at every place under erase. -/
theorem State.drawnBefore_lt (s : State) (as : List Nat) (n i j a : Nat) (h : as[i]? = some a)
    (hu : s.underErase a = true) (hij : i < j) : s.drawnBefore as n i < s.drawnBefore as n j := by
  have hsub : (as.take (i + 1)).countP s.underErase ≤ (as.take j).countP s.underErase :=
    (List.take_sublist_take_left hij).countP_le
  have hstep : (as.take (i + 1)).countP s.underErase = (as.take i).countP s.underErase + 1 := by
    rw [List.take_add_one, h, List.countP_append]
    simp [hu]
  unfold State.drawnBefore
  omega

/-- R2: the sector whose erase has started and not ended at a bank. -/
theorem Bank.sectorUnderErase_eq_some (k : Bank) (sector : Nat) :
    k.sectorUnderErase = some sector ↔ ∃ st owner chunk,
      k.writeSlot = .busy st ⟨owner, .sectorErase sector, chunk⟩
        ∧ (st = .erasing ∨ st = .suspending ∨ st = .suspended) := by
  cases hw : k.writeSlot with
  | none => simp [Bank.sectorUnderErase, hw]
  | busy st op =>
    obtain ⟨owner, target, chunk⟩ := op
    cases st <;> cases target <;> simp [Bank.sectorUnderErase, hw]

/-- R1: the bank of an address. -/
theorem bankOfSector_sectorOf (a : Nat) : bankOfSector (sectorOf a) = if a < 0x400000 then 0 else 1 := by
  have h : a / 4096 < 1024 ↔ a < 0x400000 := by omega
  simp only [bankOfSector, sectorOf, Config.sectorBytes, Config.bankSectors, h]

/-- Settles O11: the draw of a place is the number drawn before it. -/
theorem readsReturnStoredOrFreeBytes : Obligations.ReadsReturnStoredOrFreeBytes := by
  refine ⟨fun s as n => ⟨s.sample_length as n, ?_, s.drawnBefore as n,
    fun i a ha => ⟨fun hu => ?_, fun hu => ⟨?_, ?_, ?_⟩⟩, ?_⟩, fun s a => ?_⟩
  · rw [s.sample_count]; exact Nat.le_add_right _ _
  · rw [s.sample_getElem? as n i a ha, hu]; rfl
  · exact Nat.le_add_right _ _
  · obtain ⟨hi, -⟩ := List.getElem?_eq_some_iff.1 ha
    have hlt := s.drawnBefore_lt as n i as.length a ha hu hi
    have hall : s.drawnBefore as n as.length = (s.sample as n).2 := by
      rw [State.drawnBefore, List.take_length, s.sample_count]
    exact hall ▸ hlt
  · rw [s.sample_getElem? as n i a ha, hu]; rfl
  · intro i j a b ha hb hua hub hd
    rcases Nat.lt_trichotomy i j with hij | hij | hij
    · exact absurd hd (Nat.ne_of_lt (s.drawnBefore_lt as n i j a ha hua hij))
    · exact hij
    · exact absurd hd.symm (Nat.ne_of_lt (s.drawnBefore_lt as n j i b hb hub hij))
  · rw [State.underErase, beq_iff_eq, Bank.sectorUnderErase_eq_some, bankOfSector_sectorOf]
    rfl

/-! ## The end of a read (R7, R17, R76) -/

/-- Settles O42: the read slot alone changes, and the completion is that of the owner's current request. -/
theorem readCompleteHandsOnTheBytes : Obligations.ReadCompleteHandsOnTheBytes := by
  refine fun b s first length => ⟨fun p cur hslot hcur => ?_, fun kind hslot => ?_⟩
  · have hend : (s.bank b).endRead ⟨.port p, .read, first, length⟩ = { s.bank b with readSlot := none } := by
      simp [Bank.endRead]
    simp only [exec, execReadComplete, hslot, State.readComplete, State.modBank, hend]
    rw [State.complete_of_current _ p cur _ _ _ (by exact hcur)]
    rfl
  · have hend : (s.bank b).endRead ⟨.orphan, kind, first, length⟩
        = { s.bank b with readSlot := none, digest := none } := by
      simp [Bank.endRead]
    simp only [exec, execReadComplete, hslot, State.readComplete, State.modBank, hend]

/-! ## The end of a program (R3, R4, R10) -/

/-- R4: a program changes no byte that none of its data bytes falls on. -/
theorem Memory.read_program_untouched (m : Memory) (page start x : Nat) (data : List Byte) (h : Memory.wf m)
    (hx : ∀ i, i < data.length → x ≠ page + (start + i) % Config.pageBytes) :
    (m.program page start data).read x = m.read x := by
  induction data generalizing m start with
  | nil => rfl
  | cons d rest ih =>
    have hfirst : x ≠ page + start % Config.pageBytes := hx 0 (Nat.succ_pos _)
    have hrest : ∀ i, i < rest.length → x ≠ page + (start + 1 + i) % Config.pageBytes := fun i hi => by
      have := hx (i + 1) (Nat.succ_lt_succ hi)
      rwa [← Nat.add_assoc, Nat.add_right_comm] at this
    rw [Memory.program, ih _ _ (Memory.wf_write _ _ _ h) hrest, Memory.read_write _ _ _ _ h, if_neg hfirst]

/-- R3, R4: a program of no more than a page ANDs each of its data bytes into the byte it falls on. -/
theorem Memory.read_program_data (m : Memory) (page start i : Nat) (data : List Byte) (d : Byte) (h : Memory.wf m)
    (hlen : data.length ≤ Config.pageBytes) (hd : data[i]? = some d) :
    (m.program page start data).read (page + (start + i) % Config.pageBytes)
      = m.read (page + (start + i) % Config.pageBytes) &&& d := by
  induction data generalizing m start i with
  | nil => simp at hd
  | cons e rest ih =>
    have hwf := Memory.wf_write m (page + start % Config.pageBytes)
      (m.read (page + start % Config.pageBytes) &&& e) h
    simp only [List.length_cons] at hlen
    rw [Memory.program]
    cases i with
    | zero =>
      obtain rfl : e = d := by simpa using hd
      rw [Memory.read_program_untouched _ _ _ _ _ hwf, Memory.read_write _ _ _ _ h, Nat.add_zero, if_pos rfl]
      simp only [Config.pageBytes] at hlen ⊢
      omega
    | succ i =>
      have hd' : rest[i]? = some d := by simpa using hd
      obtain ⟨hi, -⟩ := List.getElem?_eq_some_iff.1 hd'
      have hne : page + (start + (i + 1)) % Config.pageBytes ≠ page + start % Config.pageBytes := by
        simp only [Config.pageBytes] at hlen ⊢
        omega
      have hplace : start + (i + 1) = start + 1 + i := by omega
      rw [hplace] at hne ⊢
      rw [ih _ (start + 1) i hwf (by omega) hd', Memory.read_write _ _ _ _ h, if_neg hne]

/-- Settles O46: the array after it is `Memory.program`'s, read byte by byte. -/
theorem programCompleteAndThePage : Obligations.ProgramCompleteAndsThePage := by
  intro b s owner page start data chunk hs hw hlen
  refine ⟨s.array.program page start data, fun i d hd => ?_, fun a ha => ?_, fun p cur howner hcur => ?_,
    fun howner => ?_⟩
  · exact Memory.read_program_data _ _ _ _ _ _ hs hlen hd
  · exact Memory.read_program_untouched _ _ _ _ _ hs ha
  · subst howner
    simp only [exec, execProgramComplete, hw, State.programComplete]
    rw [State.complete_of_current _ p cur _ _ _ (by exact hcur)]
    rfl
  · subst howner
    simp only [exec, execProgramComplete, hw, State.programComplete]
    rfl

/-! ## The end of a sector erase (R5, R11, R79) -/

/-- R5: what a byte reads as after the erase of a sector. -/
theorem Memory.read_erase_sector (m : Memory) (sector a : Nat) :
    (m.erase (sector * Config.sectorBytes) Config.sectorBytes).read a
      = if a / 4096 = sector then 0xFF else m.read a := by
  have hin : sector * 4096 ≤ a ∧ a < sector * 4096 + 4096 ↔ a / 4096 = sector := by omega
  simp only [Memory.read_erase, Config.sectorBytes, hin]
  rfl

/-- R11: the end of a sector erase, in either state in which it can end. -/
theorem execSectorEraseComplete_of_erase (b : BankId) (s : State) (st : WriteState) (owner : Owner) (sector : Nat)
    (chunk : Option Nat) (hw : (s.bank b).writeSlot = .busy st ⟨owner, .sectorErase sector, chunk⟩)
    (hst : st = .erasing ∨ st = .suspending) :
    exec (.sectorEraseComplete b) s = .next (s.eraseComplete b owner sector chunk).finish := by
  rcases hst with rfl | rfl <;> simp only [exec, execSectorEraseComplete, hw]

/-- R11: the part after the erase of a sector at a bank, before what follows for its owner. -/
def State.sectorErased (s : State) (b : BankId) (sector : Nat) : State :=
  { s.setBank b { s.bank b with writeSlot := .none, suspendCount := 0 } with
    array := s.array.erase (sector * Config.sectorBytes) Config.sectorBytes }

/-- R11, R17: an orphan's sector erase changes its sector and its slot alone. -/
theorem State.eraseComplete_orphan (s : State) (b : BankId) (sector : Nat) (chunk : Option Nat) :
    s.eraseComplete b .orphan sector chunk = s.sectorErased b sector := rfl

/-- R11, R79: a port's sector erase is followed by what its request does next. -/
theorem State.eraseComplete_port (s : State) (b : BankId) (p : Port) (sector : Nat) (chunk : Option Nat) :
    s.eraseComplete b (.port p) sector chunk = (s.sectorErased b sector).nextErase b p chunk := rfl

/-- R79: an ERASE_REGION with a sector left rejoins for it. -/
theorem State.nextErase_of_more (s : State) (b : BankId) (p : Port) (cur : Current) (i : Nat) (range : SectorRange)
    (hcur : (s.port p).current = some cur) (hrange : cur.range = some range) (hi : i + 1 < range.count) :
    s.nextErase b p (some i) = s.join b p ⟨.sectorErase (range.first + (i + 1)), some (i + 1), true⟩ := by
  simp only [State.nextErase, State.rangeOf, hcur, hrange, hi, if_true]

/-- R11: any other erase completes DONE. -/
theorem State.nextErase_of_last (s : State) (b : BankId) (p : Port) (cur : Current) (chunk : Option Nat)
    (hcur : (s.port p).current = some cur)
    (h : chunk = none ∨ cur.range = none
      ∨ ∃ i range, chunk = some i ∧ cur.range = some range ∧ range.count ≤ i + 1) :
    s.nextErase b p chunk = s.finished p cur.request .done false [] := by
  have hdone : s.nextErase b p chunk = s.completeBare p .done := by
    rcases h with rfl | h | ⟨i, range, rfl, hrange, hi⟩
    · simp only [State.nextErase]
    · simp only [State.nextErase, State.rangeOf, hcur, h]
    · simp only [State.nextErase, State.rangeOf, hcur, hrange, if_neg (Nat.not_lt.2 hi)]
  rw [hdone, State.completeBare, s.complete_of_current p cur _ _ _ hcur]
  rfl

/-- R65, R79: the entry that joins after the erase of a sector. -/
theorem State.join_sectorErased (s : State) (b : BankId) (sector : Nat) (p : Port) (c : Candidate) :
    (s.sectorErased b sector).join b p c
      = { s.setBank b (({ s.bank b with writeSlot := .none, suspendCount := 0 } : Bank).setCandidate p (some c)) with
          array := s.array.erase (sector * Config.sectorBytes) Config.sectorBytes } := by
  have hbank : (s.sectorErased b sector).bank b = { s.bank b with writeSlot := .none, suspendCount := 0 } :=
    s.bank_setBank_self b _
  rw [State.join, State.modBank, hbank]
  exact congrArg (fun u : State => { u with array := s.array.erase (sector * Config.sectorBytes) Config.sectorBytes })
    (s.setBank_setBank b _ _)

/-- Settles O47: the array after it is `Memory.erase`'s, and the owner's request goes as `nextErase` says. -/
theorem sectorEraseCompleteErasesTheSector : Obligations.SectorEraseCompleteErasesTheSector := by
  intro b s st owner sector chunk k hw hst hk
  subst hk
  rw [execSectorEraseComplete_of_erase b s st owner sector chunk hw hst]
  refine ⟨s.array.erase (sector * Config.sectorBytes) Config.sectorBytes, s.array.read_erase_sector sector,
    fun p cur howner hcur => ?_, fun howner => ?_⟩
  · subst howner
    have hcur' : ((s.sectorErased b sector).port p).current = some cur := hcur
    rw [State.eraseComplete_port]
    refine ⟨fun i range hchunk hrange hi => ?_, fun hlast => ?_⟩
    · rw [hchunk, State.nextErase_of_more _ b p cur i range hcur' hrange hi, State.join_sectorErased]
    · rw [State.nextErase_of_last _ b p cur chunk hcur' hlast]
      rfl
  · subst howner
    rw [State.eraseComplete_orphan]
    rfl

end Sys2Proof.Machine
end

section
/-! PROOFS. The start of a write with its marks, suspension and resumption; the flush of a port. -/

namespace Sys2Proof.Machine

open Sys2Proof

/-! ## The marks of a write's start (R100) -/

/-- R100: a port after a write of a sector starts at the bank where its entry is c: a running verify whose range holds
the sector is marked. -/
def PortState.marked (x : PortState) (c : Option Candidate) (sector : Nat) : PortState :=
  match x.current with
  | none => x
  | some cur =>
    match cur.verify with
    | none => x
    | some v =>
      if (c.any fun c => c.granted) && v.range.contains sector then
        { x with current := some { cur with verify := some { v with disturbed := true } } }
      else x

/-- R100: the marks of a list of ports are those of its first port and then of the others. -/
theorem State.markDisturbed_cons (s : State) (b : BankId) (sector : Nat) (p : Port) (rest : List Port) :
    s.markDisturbed b sector (p :: rest)
      = (s.modPort p fun x => x.marked ((s.bank b).candidate p) sector).markDisturbed b sector rest := by
  have hsame : (s.port p).marked ((s.bank b).candidate p) sector = s.port p →
      s.modPort p (fun x => x.marked ((s.bank b).candidate p) sector) = s := fun h => by
    rw [State.modPort, h, s.setPort_port]
  rw [State.markDisturbed]
  congr 1
  cases hcur : (s.port p).current with
  | none => simp only [State.verifyOf, hcur]; exact (hsame (by simp only [PortState.marked, hcur])).symm
  | some cur =>
    cases hv : cur.verify with
    | none =>
      simp only [State.verifyOf, hcur, hv]; exact (hsame (by simp only [PortState.marked, hcur, hv])).symm
    | some v =>
      have hwaits : s.verifyWaits b p = ((s.bank b).candidate p).any fun c => c.granted := by
        simp [State.verifyWaits, State.verifyOf, hcur, hv]
      simp only [State.verifyOf, hcur, hv, hwaits]
      split
      · next h => simp only [State.setVerify, State.modPort, PortState.marked, hcur, hv, h, if_true, Option.map_some]
      · next h => exact (hsame (by simp only [PortState.marked, hcur, hv, if_neg h])).symm

/-- R100: each listed port is marked as its own verify demands. -/
theorem State.port_markDisturbed (s : State) (b : BankId) (sector : Nat) (ps : List Port) (hps : ps.Nodup) (q : Port) :
    (s.markDisturbed b sector ps).port q
      = if q ∈ ps then (s.port q).marked ((s.bank b).candidate q) sector else s.port q := by
  induction ps generalizing s with
  | nil => rfl
  | cons p rest ih =>
    obtain ⟨hp, hrest⟩ := List.nodup_cons.1 hps
    rw [s.markDisturbed_cons, ih _ hrest, State.port_modPort, State.bank_modPort]
    by_cases hq : q = p
    · subst hq; rw [if_neg hp, if_pos rfl, if_pos List.mem_cons_self]
    · simp only [List.mem_cons, hq, false_or, if_false]

/-- R100: marks change the ports alone. -/
theorem State.markDisturbed_frame (s : State) (b : BankId) (sector : Nat) (ps : List Port) :
    s.markDisturbed b sector ps = { s with ports := (s.markDisturbed b sector ps).ports } := by
  induction ps generalizing s with
  | nil => rfl
  | cons p rest ih =>
    rw [s.markDisturbed_cons]
    exact ih _

/-- R9: what the start of a write does to its bank, and the sector it takes. -/
theorem Bank.start_eq (k k' : Bank) (op : WriteOperation) (sector : Nat)
    (h : (∃ page start data, op.target = .program page start data ∧ sector = page / 4096
        ∧ k' = { k with writeSlot := .busy .programming op })
      ∨ op.target = .sectorErase sector ∧ k' = { k with writeSlot := .busy .erasing op, suspendCount := 0 }) :
    k.start op = k' ∧ op.target.sector = sector ∧ k'.candidates = k.candidates := by
  rcases h with ⟨page, start, data, ht, rfl, rfl⟩ | ⟨ht, rfl⟩
  · simp only [Bank.start, ht, WriteTarget.sector, sectorOf, Config.sectorBytes, and_self]
  · simp only [Bank.start, ht, WriteTarget.sector, and_self]

/-- R100: a running verify whose range holds the sector is marked. -/
theorem PortState.marked_of_running (x : PortState) (c : Candidate) (cur : Current) (v : VerifyRecord) (sector : Nat)
    (hc : c.granted = true) (hcur : x.current = some cur) (hv : cur.verify = some v) (hlow : v.range.first ≤ sector)
    (hhigh : sector < v.range.first + v.range.count) :
    x.marked (some c) sector = { x with current := some { cur with verify := some { v with disturbed := true } } } := by
  simp [PortState.marked, hcur, hv, hc, SectorRange.contains, hlow, hhigh]

/-- R100: any other port is left as it was. -/
theorem PortState.marked_of_not_running (x : PortState) (entry : Option Candidate) (sector : Nat)
    (h : ∀ c cur v, entry = some c → x.current = some cur → cur.verify = some v →
      c.granted = false ∨ sector < v.range.first ∨ v.range.first + v.range.count ≤ sector) :
    x.marked entry sector = x := by
  unfold PortState.marked
  split
  · rfl
  · next cur hcur =>
    split
    · rfl
    · next v hv =>
      refine if_neg fun hm => ?_
      obtain ⟨hgranted, hin⟩ := (Bool.and_eq_true _ _).mp hm
      obtain ⟨c, hc, hg⟩ := (Option.any_eq_true _ _).1 hgranted
      simp only [SectorRange.contains, Bool.and_eq_true, decide_eq_true_eq] at hin
      rcases h c cur v hc hcur hv with h | h | h
      · exact Bool.false_ne_true (h.symm.trans hg)
      · omega
      · omega

/-- Settles O41: the start by the marks of each port, the suspension and the resume by the write slot. -/
theorem writesStartSuspendAndResume : Obligations.WritesStartSuspendAndResume := by
  refine ⟨fun b s op sector k hw hr ho hk => ?_, fun b s op => ⟨fun hw => ?_, fun hw hr ho hc => ?_⟩⟩
  · obtain ⟨hstart, hsector, hcand⟩ := Bank.start_eq _ k op sector hk
    have hdue : (s.bank b).startDue = some op := (Bank.startDue_eq_some _ op).2 ⟨hw, hr, ho⟩
    have hmarks : s.startWrite b op = (s.setBank b k).markDisturbed b sector allPorts := by
      rw [State.startWrite, State.modBank, hstart, hsector]
    have hport : ∀ p, (s.startWrite b op).port p = (s.port p).marked ((s.bank b).candidate p) sector := fun p => by
      rw [hmarks, State.port_markDisturbed _ b sector allPorts (by decide), if_pos (mem_allPorts p), State.port_setBank,
        State.bank_setBank_self, Bank.candidate, hcand, ← Bank.candidate]
    refine ⟨s.startWrite b op, by simp only [exec, execWriteStart, hdue], ?_, fun p => ⟨?_, ?_⟩⟩
    · rw [hmarks]; exact State.markDisturbed_frame _ b sector allPorts
    · intro c cur v hc hg hcur hv hlow hhigh
      rw [hport, hc]
      exact PortState.marked_of_running _ c cur v sector hg hcur hv hlow hhigh
    · intro h
      rw [hport]
      exact PortState.marked_of_not_running _ _ sector h
  · simp only [exec, execSuspendComplete, hw]
    rfl
  · have hread : (s.bank b).hasReadCandidate = false := by
      rw [Bool.eq_false_iff, Ne, Bank.hasReadCandidate_iff]
      rintro ⟨p, c, hpc, hread⟩
      exact Bool.false_ne_true ((hc p c hpc).symm.trans hread)
    have hdue : (s.bank b).resumeDue = true := (Bank.resumeDue_eq_true _).2 ⟨op, hw, hr, ho, hread⟩
    simp only [exec, execResume, hdue, if_true, State.modBank, Bank.resume, hw]

/-! ## The flush of a port (R16, R56, R59, R66, R92) -/

/-- R92: the ports after the close of a port's stream. -/
theorem State.port_closeStream (s : State) (p q : Port) :
    (s.closeStream p).port q = if q = p then { s.port p with stream := none } else s.port q := by
  cases hs : (s.port p).stream with
  | none =>
    rw [s.closeStream_of_none p hs]
    split
    · next e => rw [e, ← hs]
    · rfl
  | some st => rw [s.closeStream_of_open p st hs, State.port_setBank, State.port_setPort]

/-- R92: the banks after the close of a port's stream. -/
theorem State.bank_closeStream (s : State) (p : Port) (b : BankId) :
    (s.closeStream p).bank b
      = { s.bank b with openStreams := (s.bank b).openStreams - (s.port p).streamCount b } := by
  cases hs : (s.port p).stream with
  | none =>
    have hzero : (s.port p).streamCount b = 0 := by simp [PortState.streamCount, hs]
    rw [s.closeStream_of_none p hs, hzero]
    rfl
  | some st =>
    have hcount : (s.port p).streamCount b = if b = st.bank then 1 else 0 := by
      simp only [PortState.streamCount, hs, Option.any_some, beq_iff_eq, @eq_comm _ st.bank b]
    rw [s.closeStream_of_open p st hs, State.bank_setBank, State.bank_setPort, hcount]
    split
    · next e => rw [e]
    · rfl

/-- R92: the close of a stream changes the ports and the banks alone. -/
theorem State.closeStream_frame (s : State) (p : Port) :
    s.closeStream p = { s with banks := (s.closeStream p).banks, ports := (s.closeStream p).ports } := by
  unfold State.closeStream
  split <;> rfl

/-- R59, R138: a withdrawal changes the writer alone (log 17). -/
theorem State.withdrawStore_eq (s : State) (p : Port) :
    s.withdrawStore p = { s with
      writer := if p = s.admin then { s.writer with waiting := false, carried := false } else s.writer } := by
  unfold State.withdrawStore
  split <;> rfl

/-- A port's flush before its stream closes: the banks, the port, the writer. -/
def State.flushed (s : State) (p : Port) : State :=
  (((s.modBank 0 fun k => k.flush p).modBank 1 fun k => k.flush p).modPort p PortState.flush).withdrawStore p

/-- R16, R66: the banks of a flush before its stream closes. -/
theorem State.bank_flushed (s : State) (p : Port) (b : BankId) : (s.flushed p).bank b = (s.bank b).flush p := by
  have hbanks : ((s.modBank 0 fun k => k.flush p).modBank 1 fun k => k.flush p).bank b = (s.bank b).flush p := by
    rw [State.bank_modBank, State.bank_modBank, State.bank_modBank]
    fin_cases b <;> simp
  rw [State.flushed, State.withdrawStore_eq]
  exact hbanks

/-- R59: the ports of a flush before its stream closes. -/
theorem State.port_flushed (s : State) (p q : Port) :
    (s.flushed p).port q = if q = p then (s.port p).flush else s.port q := by
  rw [State.flushed, State.withdrawStore_eq]
  exact State.port_modPort _ p q PortState.flush

/-- R16, R66, R92: the banks after a flush. -/
theorem State.bank_flush (s : State) (p : Port) (b : BankId) :
    (s.flush p).bank b
      = { (s.bank b).flush p with openStreams := (s.bank b).openStreams - (s.port p).streamCount b } := by
  have hcount : ((s.flushed p).port p).streamCount b = (s.port p).streamCount b := by
    rw [State.port_flushed, if_pos rfl]; rfl
  have h := (s.flushed p).bank_closeStream p b
  rw [hcount, State.bank_flushed] at h
  exact h

/-- R59, R92: the ports after a flush. -/
theorem State.port_flush (s : State) (p q : Port) :
    (s.flush p).port q = if q = p then { (s.port p).flush with stream := none } else s.port q := by
  have h := (s.flushed p).port_closeStream p q
  rw [State.port_flushed, State.port_flushed, if_pos rfl] at h
  rw [State.flush]
  exact h.trans (by split <;> rfl)

/-- R59: a flush changes the ports, the banks and the writer alone, the writer by the withdrawal. -/
theorem State.flush_frame (s : State) (p : Port) :
    s.flush p = { s with
      banks := (s.flush p).banks, ports := (s.flush p).ports
      writer := if p = s.admin then { s.writer with waiting := false, carried := false } else s.writer } := by
  have h := (s.flushed p).closeStream_frame p
  have hu := State.withdrawStore_eq
    (((s.modBank 0 fun k => k.flush p).modBank 1 fun k => k.flush p).modPort p PortState.flush) p
  rw [State.flushed, hu] at h
  rw [State.flush, hu]
  exact h

/-- R56, R92: a FETCH or stream that a flush overtakes is silenced. -/
theorem Transaction.flush_of_overtaken (tr : Transaction) (d : Decision) (hd : tr.decision = some d)
    (he : d.effect = .stream ∨ ∃ m, d.effect = .fetched m) : tr.flush = { tr with silenced := true } := by
  rcases he with he | ⟨m, he⟩ <;> simp only [Transaction.flush, hd, he]

/-- R56: any other transaction goes on. -/
theorem Transaction.flush_of_other (tr : Transaction)
    (h : ∀ d, tr.decision = some d → d.effect ≠ .stream ∧ ∀ m, d.effect ≠ .fetched m) : tr.flush = tr := by
  unfold Transaction.flush
  split
  · rfl
  · next d hd =>
    obtain ⟨hstream, hfetched⟩ := h d hd
    split
    · next m he => exact absurd he (hfetched m)
    · next he => exact absurd he hstream
    · rfl

/-- Settles O26: the ports, the banks and the writer after a flush, field by field. -/
theorem flushEmptiesThePort : Obligations.FlushEmptiesThePort := by
  intro s p
  have hwriter : (s.flush p).writer
      = if p = s.admin then { s.writer with waiting := false, carried := false } else s.writer := by
    rw [s.flush_frame p]
  refine ⟨s.flush p, rfl, ?_, fun q hq => ?_, ⟨(s.port p).transaction.map Transaction.flush, ?_, ?_, ?_⟩, hwriter,
    fun b => ?_⟩
  · rw [hwriter]; exact s.flush_frame p
  · rw [State.port_flush, if_neg hq]
  · rw [State.port_flush, if_pos rfl]; rfl
  · intro h; rw [h]; rfl
  · intro u hu
    rw [hu]
    refine ⟨?_, fun h => congrArg some (u.flush_of_other h)⟩
    rintro ⟨d, hd, he⟩
    exact congrArg some (u.flush_of_overtaken d hd he)
  · have hcand : ∀ q, ((s.flush p).bank b).candidate q = if q = p then none else (s.bank b).candidate q := fun q => by
      rw [State.bank_flush]
      exact Bank.candidate_setCandidate (s.bank b) p q none
    have hcount : (s.port p).streamCount b = if ∃ st, (s.port p).stream = some st ∧ st.bank = b then 1 else 0 := by
      cases hs : (s.port p).stream <;> simp [PortState.streamCount, hs]
    refine ⟨by rw [hcand, if_pos rfl], fun q hq => by rw [hcand, if_neg hq], ?_⟩
    rw [State.bank_flush, ← hcount]
    refine ⟨rfl, rfl, rfl, fun h => ?_, fun op h => ?_, fun h => ?_, fun st op h => ?_, rfl⟩
    · simp only [Bank.flush, h, Option.map_none]
    · simp only [Bank.flush, h, Option.map_some, Owner.flush]
    · simp only [Bank.flush, h, WriteSlot.flush]
    · simp only [Bank.flush, h, WriteSlot.flush, Owner.flush]

end Sys2Proof.Machine
end

section
/-! PROOFS. The region and view tables as one view of a state or an image, what R132 asks of them, and that every command
keeps them consistent. -/

namespace Sys2Proof.Machine

open Sys2Proof

/-! ## Sector ranges (R22) -/

/-- R22: a legal range, in numbers: within one bank is on one side of sector 1024. -/
theorem SectorRange.legal_iff (q : SectorRange) :
    q.legal = true ↔ 1 ≤ q.count ∧ q.count ≤ 1024 ∧ q.first + q.count ≤ 2048
      ∧ (q.first + q.count ≤ 1024 ∨ 1024 ≤ q.first) := by
  have hbank : (bankOfSector q.first == bankOfSector (q.first + q.count - 1)) = true
      ↔ (q.first < 1024 ↔ q.first + q.count - 1 < 1024) := by
    by_cases hlow : q.first < 1024 <;> by_cases hhigh : q.first + q.count - 1 < 1024 <;>
      simp [bankOfSector, Config.bankSectors, hlow, hhigh]
  simp only [SectorRange.legal, Bool.and_eq_true, decide_eq_true_eq, hbank]
  simp only [Config.bankSectors, Config.sectorCount]
  omega

/-- Two ranges share no sector where one ends before the other begins. -/
theorem SectorRange.overlaps_eq_false (q r : SectorRange) :
    q.overlaps r = false ↔ q.first + q.count ≤ r.first ∨ r.first + r.count ≤ q.first := by
  simp only [SectorRange.overlaps, Bool.and_eq_false_iff, decide_eq_false_iff_not, Nat.not_lt]
  exact Or.comm

/-- Sharing a sector is mutual. -/
theorem SectorRange.overlaps_comm (q r : SectorRange) : q.overlaps r = r.overlaps q := Bool.and_comm _ _

/-- An entry is in use exactly where it is not UNUSED. -/
theorem RegionEntry.range?_eq_none (e : RegionEntry) : e.range? = none ↔ e = .unused := by
  cases e <;> simp [RegionEntry.range?]

/-- R131: an entry as it is stored has its range. -/
@[simp] theorem RegionEntry.range?_stored (e : RegionEntry) : e.stored.range? = e.range? := by cases e <;> rfl

/-! ## The tables that R132 tests -/

/-- The tables that the second test of R132 reads: the ranges of the entries in use, the bindings, the boot records. -/
@[ext] structure Tables where
  range : RegionId → Option SectorRange
  windows : Port → Vector (Option RegionId) 4
  boot : Port → StoredBoot

/-- The tables of the part. -/
def State.tables (s : State) : Tables :=
  ⟨fun n => (s.region n).range?, fun p => (s.port p).windows, fun p => (s.port p).boot⟩

/-- The tables of an image. -/
def ConfigImage.tables (i : ConfigImage) : Tables := ⟨fun n => (i.regions[n]).range?, fun p => i.windows[p], fun p => i.boot[p]⟩

/-- R41, R125: what a boot record asks of the region table. -/
structure StoredBoot.Fits (b : StoredBoot) (range : RegionId → Option SectorRange) : Prop where
  limit : 1 ≤ b.attemptLimit ∧ b.attemptLimit ≤ 7
  slots : b.enabled = true → b.slotA ≠ b.slotB ∧ range b.slotA ≠ none ∧ range b.slotB ≠ none

/-- R132, second test: tables the part could hold. -/
structure Tables.Consistent (v : Tables) : Prop where
  legal : ∀ n q, v.range n = some q → q.legal = true
  apart : ∀ n m q r, n ≠ m → v.range n = some q → v.range m = some r → q.overlaps r = false
  bound : ∀ (p : Port) (w : Fin 4) n, (v.windows p)[w] = some n → v.range n ≠ none
  fits : ∀ p, (v.boot p).Fits v.range

/-- R132: the second test passes exactly where the tables of the image are ones the part could hold. -/
theorem ConfigImage.consistent_iff (i : ConfigImage) : i.consistent = true ↔ i.tables.Consistent := by
  have huses : ∀ n, i.uses n = true ↔ i.tables.range n ≠ none := fun n => Option.isSome_iff_ne_none
  unfold ConfigImage.consistent
  simp only [Bool.and_eq_true, List.all_eq_true, Bool.or_eq_true, beq_iff_eq, decide_eq_true_eq, Bool.not_eq_true',
    bne_iff_ne, huses]
  constructor
  · rintro ⟨⟨⟨hlegal, hapart⟩, hbound⟩, hfits⟩
    refine ⟨fun n q hq => ?_, fun n m q r hne hq hr => ?_, fun p w n hn => ?_, fun p => ?_⟩
    · have hlegal := hlegal n (mem_allRegions n)
      rw [show (i.regions[n]).range? = some q from hq] at hlegal
      exact hlegal
    · have hapart := (hapart n (mem_allRegions n) m (mem_allRegions m)).resolve_left hne
      rw [show (i.regions[n]).range? = some q from hq, show (i.regions[m]).range? = some r from hr] at hapart
      simpa using hapart
    · have hbound := hbound p (mem_allPorts p) w (mem_allPorts w)
      rw [show (i.windows[p])[w] = some n from hn] at hbound
      exact (huses n).1 hbound
    · obtain ⟨hlimit, hslots⟩ := hfits p (mem_allPorts p)
      refine ⟨hlimit, fun he => ?_⟩
      obtain ⟨⟨hne, ha⟩, hb⟩ := hslots.resolve_left fun hf => Bool.false_ne_true (hf.symm.trans he)
      exact ⟨hne, ha, hb⟩
  · rintro ⟨hlegal, hapart, hbound, hfits⟩
    refine ⟨⟨⟨fun n _ => ?_, fun n _ m _ => ?_⟩, fun p _ w _ => ?_⟩, fun p _ => ?_⟩
    · split
      · rfl
      · next q hq => exact hlegal n q hq
    · refine or_iff_not_imp_left.2 fun hne => ?_
      split
      · next q r hq hr => rw [hapart n m q r hne hq hr]; rfl
      · rfl
    · split
      · rfl
      · next n hn => exact (huses n).2 (hbound p w n hn)
    · obtain ⟨hlimit, hslots⟩ := hfits p
      refine ⟨hlimit, ?_⟩
      cases he : (i.boot[p]).enabled with
      | false => exact .inl rfl
      | true =>
        obtain ⟨hne, ha, hb⟩ := hslots he
        exact .inr ⟨⟨hne, ha⟩, hb⟩

/-- R134: a snapshot's tables are the part's. -/
theorem State.tables_snapshot (s : State) : s.snapshot.tables = s.tables := by
  obtain ⟨hregion, hwindow, hboot⟩ := s.snapshot_fields
  refine Tables.ext (funext fun n => ?_) (funext hwindow) (funext hboot)
  exact (congrArg RegionEntry.range? (hregion n)).trans (RegionEntry.range?_stored _)

/-- R131, R132: what `tablesConsistent` says of the part, its block and the snapshot of a write in progress. -/
theorem State.tablesConsistent_iff (s : State) :
    s.tablesConsistent ↔ s.tables.Consistent ∧ (∀ b, s.block = some b → b.valid = true)
      ∧ ∀ i, s.writer.snapshot = some i → i.tables.Consistent := by
  rw [State.tablesConsistent, s.snapshot.consistent_iff, s.tables_snapshot]
  simp only [imageConsistent, Option.all_eq_true, ConfigImage.consistent_iff]

end Sys2Proof.Machine
end

section
/-! PROOFS. The payload fields of Table 11-1 as numbers, and each administrative edit by the conditions under which it is
made. -/

namespace Sys2Proof.Machine

open Sys2Proof

/-! ## Payload fields (Table 11-1) -/

theorem portOfByte_eq_some (b : Byte) (p : Port) : portOfByte b = some p ↔ b.toNat = p.val := by
  unfold portOfByte
  split
  · simp [Fin.ext_iff]
  · simp only [reduceCtorEq, false_iff]; omega

theorem portOfByte_eq_none (b : Byte) : portOfByte b = none ↔ 4 ≤ b.toNat := by
  unfold portOfByte
  split <;> simp <;> omega

theorem windowOfByte_eq_some (b : Byte) (w : Fin 4) : windowOfByte b = some w ↔ b.toNat = w.val := portOfByte_eq_some b w

theorem windowOfByte_eq_none (b : Byte) : windowOfByte b = none ↔ 4 ≤ b.toNat := portOfByte_eq_none b

theorem regionOfByte_eq_some (b : Byte) (n : RegionId) : regionOfByte b = some n ↔ b.toNat = n.val := by
  unfold regionOfByte
  split
  · simp [Fin.ext_iff]
  · simp only [reduceCtorEq, false_iff]; omega

theorem regionOfByte_eq_none (b : Byte) : regionOfByte b = none ↔ 16 ≤ b.toNat := by
  unfold regionOfByte
  split <;> simp <;> omega

/-- Table 11-1: the code of a level is its place on the ladder. -/
theorem levelOfByte_eq (b : Byte) : levelOfByte b = [Level.none, .read, .write, .full][b.toNat]? := by
  unfold levelOfByte
  generalize b.toNat = code
  rcases code with _ | _ | _ | _ | code <;> rfl

/-- A BIND_VIEW's target is none for 0xFF, and the region that a byte below 16 names. -/
theorem bindTargetOfByte_eq_some (b : Byte) (target : Option RegionId) :
    bindTargetOfByte b = some target
      ↔ target = none ∧ b.toNat = 255 ∨ ∃ n : RegionId, target = some n ∧ b.toNat = n.val := by
  unfold bindTargetOfByte
  split
  · next h =>
    subst h
    cases target <;> simp
    omega
  · next h =>
    have hne : b.toNat ≠ 255 := fun e => h (BitVec.eq_of_toNat_eq e)
    simp only [Option.map_eq_some_iff, regionOfByte_eq_some, hne, and_false, false_or]
    exact exists_congr fun n => by rw [and_comm, eq_comm]

theorem bindTargetOfByte_eq_none (b : Byte) : bindTargetOfByte b = none ↔ 16 ≤ b.toNat ∧ b.toNat ≠ 255 := by
  unfold bindTargetOfByte
  split
  · next h => subst h; simp
  · next h =>
    have hne : b.toNat ≠ 255 := fun e => h (BitVec.eq_of_toNat_eq e)
    simp only [Option.map_eq_none_iff, regionOfByte_eq_none, hne, ne_eq, not_false_eq_true, and_true]

theorem boolOfByte_eq_some (b : Byte) (x : Bool) : boolOfByte b = some x ↔ b.toNat = x.toNat := by
  unfold boolOfByte
  cases x <;> split <;> simp_all

/-- Table 11-1: the code of a slot is its place. -/
theorem slotOfByte_eq (b : Byte) : slotOfByte b = [Slot.a, .b][b.toNat]? := by
  unfold slotOfByte
  generalize b.toNat = code
  rcases code with _ | _ | code <;> rfl

theorem limitOfByte_eq_some (b : Byte) (n : Nat) : limitOfByte b = some n ↔ b.toNat = n ∧ 1 ≤ n ∧ n ≤ 7 := by
  unfold limitOfByte
  split <;> simp <;> omega

/-- Table 7-1, Table 11-1: the code of a boot period is its place among the periods. -/
theorem bootPeriodOfByte_eq_some (b : Byte) (x : BootPeriod) :
    bootPeriodOfByte b = some x ↔ [250, 500, 1000, 2000, 4000, 8000, 16000, 32000][b.toNat]? = some x.ms := by
  have hms : Function.Injective BootPeriod.ms := by
    intro y z h
    revert h
    cases y <;> cases z <;> decide
  have hcode : (bootPeriodOfByte b).map BootPeriod.ms
      = [250, 500, 1000, 2000, 4000, 8000, 16000, 32000][b.toNat]? := by
    unfold bootPeriodOfByte
    generalize b.toNat = code
    rcases code with _ | _ | _ | _ | _ | _ | _ | _ | code <;> rfl
  rw [← hcode, ← Option.map_some, (Option.map_injective hms).eq_iff]

/-- Table 7-1, Table 11-1: the code of a watchdog period is its place among the periods. -/
theorem watchdogPeriodOfByte_eq (b : Byte) :
    watchdogPeriodOfByte b = [WatchdogPeriod.off, .ms100, .ms250, .ms500, .s1, .s2, .s4, .s8][b.toNat]? := by
  unfold watchdogPeriodOfByte
  generalize b.toNat = code
  rcases code with _ | _ | _ | _ | _ | _ | _ | _ | code <;> rfl

/-- R125: the stored fields that a SET_BOOT payload gives, field by field. -/
theorem Request.storedBoot_eq_some (r : Request) (b : StoredBoot) :
    r.storedBoot = some b ↔
      (boolOfByte (r.byte 1) = some b.enabled ∧ regionOfByte (r.byte 2) = some b.slotA
        ∧ regionOfByte (r.byte 3) = some b.slotB) ∧ slotOfByte (r.byte 4) = some b.active
        ∧ limitOfByte (r.byte 5) = some b.attemptLimit ∧ bootPeriodOfByte (r.byte 6) = some b.bootPeriod
        ∧ watchdogPeriodOfByte (r.byte 7) = some b.watchdogPeriod := by
  unfold Request.storedBoot
  constructor
  · intro h
    split at h
    · next h1 h2 h3 h4 h5 h6 h7 => cases h; exact ⟨⟨h1, h2, h3⟩, h4, h5, h6, h7⟩
    · cases h
  · rintro ⟨⟨h1, h2, h3⟩, h4, h5, h6, h7⟩
    rw [h1, h2, h3, h4, h5, h6, h7]

/-! ## Edits by their conditions (R33 to R38, R125, R126) -/

/-- R34: a DEFINE_REGION is made on an UNUSED entry, of a legal range that shares no sector with another. -/
theorem State.defineRegion_eq_some (s t : State) (r : Request) :
    s.defineRegion r = some t ↔ ∃ n, regionOfByte (r.byte 0) = some n ∧ s.region n = .unused
      ∧ SectorRange.legal ⟨r.half 1, r.half 3⟩ = true
      ∧ (∀ m q, (s.region m).range? = some q → q.overlaps ⟨r.half 1, r.half 3⟩ = false)
      ∧ t = s.setRegion n (.inUse false ⟨r.half 1, r.half 3⟩ noAccess) := by
  unfold State.defineRegion
  cases hn : regionOfByte (r.byte 0) with
  | none => simp
  | some n =>
    have hunused : (!(s.region n).isInUse) = true ↔ s.region n = .unused := by
      rw [← RegionEntry.range?_eq_none]; simp [RegionEntry.isInUse]
    simp only [Option.ite_none_right_eq_some, Bool.and_eq_true, hunused, List.all_eq_true, Option.some.injEq,
      exists_eq_left', and_assoc, eq_comm (a := t)]
    refine and_congr_right fun _ => and_congr_right fun _ => and_congr_left fun _ => ⟨fun h m q hq => ?_, fun h m _ => ?_⟩
    · have hm := h m (mem_allRegions m)
      rw [hq] at hm
      simpa using hm
    · split
      · rfl
      · next q hq => rw [h m q hq]; rfl

/-- R35: whether any window of any port is bound to a region. -/
theorem State.isBound_eq_false (s : State) (n : RegionId) :
    s.isBound n = false ↔ ∀ (p : Port) (w : Fin 4), (s.port p).window w ≠ some n := by
  simp only [State.isBound, List.any_eq_false, Bool.not_eq_true, beq_eq_false_iff_ne]
  exact ⟨fun h p w => h p (mem_allPorts p) w (mem_allPorts w), fun h p _ w _ => h p w⟩

/-- R35: whether a region is a slot of an enabled boot record. -/
theorem State.isEnabledSlot_eq_false (s : State) (n : RegionId) :
    s.isEnabledSlot n = false ↔ ∀ p : Port, (s.port p).boot.enabled = true →
      (s.port p).boot.slotA ≠ n ∧ (s.port p).boot.slotB ≠ n := by
  simp only [State.isEnabledSlot, List.any_eq_false, Bool.and_eq_true, Bool.or_eq_true, beq_iff_eq, not_and, not_or]
  exact ⟨fun h p => h p (mem_allPorts p), fun h p _ => h p⟩

/-- R35: a CLEAR_REGION is made on an OPEN region with no right, no window and no enabled record on it. -/
theorem State.clearRegion_eq_some (s t : State) (r : Request) :
    s.clearRegion r = some t ↔ ∃ n, regionOfByte (r.byte 0) = some n
      ∧ (∃ range levels, s.region n = .inUse false range levels ∧ ∀ p : Port, levels[p] = Level.none)
      ∧ s.isBound n = false ∧ s.isEnabledSlot n = false ∧ t = s.setRegion n .unused := by
  unfold State.clearRegion
  cases hn : regionOfByte (r.byte 0) with
  | none => simp
  | some n =>
    have hlevels : ∀ levels : Vector Level 4, (allPorts.all fun p => levels[p] == .none) = true
        ↔ ∀ p : Port, levels[p] = Level.none := fun levels => by
      simp only [List.all_eq_true, beq_iff_eq]
      exact ⟨fun h p => h p (mem_allPorts p), fun h p _ => h p⟩
    simp only [Option.some.injEq, exists_eq_left']
    cases he : s.region n with
    | unused => simp
    | inUse locked range levels =>
      cases locked with
      | true => simp
      | false =>
        simp only [Option.ite_none_right_eq_some, Bool.and_eq_true, hlevels, Bool.not_eq_true', Option.some.injEq, and_assoc,
          RegionEntry.inUse.injEq, true_and, exists_eq_left', exists_and_left, eq_comm (a := t)]

/-- R36: a SET_ACCESS of an in-use region that names the level held changes nothing; one from NONE or to NONE changes
it. -/
theorem State.setAccess_eq_some (s t : State) (r : Request) :
    s.setAccess r = some t ↔ ∃ n p new locked range levels, regionOfByte (r.byte 0) = some n
      ∧ portOfByte (r.byte 1) = some p ∧ levelOfByte (r.byte 2) = some new ∧ s.region n = .inUse locked range levels
      ∧ (levels[p] = new ∧ t = s
        ∨ levels[p] ≠ new ∧ (levels[p] = .none ∨ new = .none)
          ∧ t = (s.setRegion n (.inUse locked range (levels.set p new))).raise p .configEdit) := by
  unfold State.setAccess
  constructor
  · intro h
    split at h
    · next n p new hn hp hl =>
      split at h
      · cases h
      · next locked range levels he =>
        refine ⟨n, p, new, locked, range, levels, hn, hp, hl, he, ?_⟩
        split at h
        · next heq => cases h; exact .inl ⟨heq, rfl⟩
        · next hne =>
          split at h
          · next hnone => cases h; exact .inr ⟨hne, hnone, rfl⟩
          · cases h
    · cases h
  · rintro ⟨n, p, new, locked, range, levels, hn, hp, hl, he, ⟨heq, rfl⟩ | ⟨hne, hnone, rfl⟩⟩
    · simp only [hn, hp, hl, he, if_pos heq]
    · simp only [hn, hp, hl, he, if_neg hne, if_pos hnone]

/-- R37: a BIND_VIEW is made where it leaves a supervised port's first two windows alone and names no UNUSED entry; it
changes nothing where the binding is held already. -/
theorem State.bindView_eq_some (s t : State) (r : Request) :
    s.bindView r = some t ↔ ∃ p w target, portOfByte (r.byte 0) = some p ∧ windowOfByte (r.byte 1) = some w
      ∧ bindTargetOfByte (r.byte 2) = some target ∧ ((s.port p).boot.enabled = true → 2 ≤ w.val)
      ∧ (∀ n, target = some n → s.region n ≠ .unused)
      ∧ ((s.port p).window w = target ∧ t = s
        ∨ (s.port p).window w ≠ target ∧ t = (s.setWindow p w target).raise p .configEdit) := by
  have hused : ∀ target : Option RegionId, (target.any fun n => !(s.region n).isInUse) = true
      ↔ ¬ ∀ n, target = some n → s.region n ≠ .unused := fun target => by
    cases target with
    | none => simp
    | some n => simp [RegionEntry.isInUse, RegionEntry.range?_eq_none]
  unfold State.bindView
  constructor
  · intro h
    split at h
    · next p w target hp hw ht =>
      split at h
      · cases h
      · next hfree =>
        split at h
        · cases h
        · next hin =>
          rw [hused, not_not] at hin
          refine ⟨p, w, target, hp, hw, ht, fun he => Nat.le_of_not_lt fun hlt => hfree ⟨he, hlt⟩, hin, ?_⟩
          split at h
          · next heq => cases h; exact .inl ⟨heq, rfl⟩
          · next hne => cases h; exact .inr ⟨hne, rfl⟩
    · cases h
  · rintro ⟨p, w, target, hp, hw, ht, hfree, hin, hcase⟩
    have hfree' : ¬ ((s.port p).boot.enabled = true ∧ w.val < 2) := fun ⟨he, hlt⟩ => Nat.not_lt.2 (hfree he) hlt
    have hin' : ¬ (target.any fun n => !(s.region n).isInUse) = true := by rw [hused, not_not]; exact hin
    simp only [hp, hw, ht, if_neg hfree', if_neg hin']
    rcases hcase with ⟨heq, rfl⟩ | ⟨hne, rfl⟩
    · rw [if_pos heq]
    · rw [if_neg hne]

/-- R38: a LOCK_REGION locks an OPEN region and leaves a LOCKED one as it is. -/
theorem State.lockRegion_eq_some (s t : State) (r : Request) :
    s.lockRegion r = some t ↔ ∃ n locked range levels, regionOfByte (r.byte 0) = some n
      ∧ s.region n = .inUse locked range levels
      ∧ (locked = true ∧ t = s
        ∨ locked = false ∧ t = (s.setRegion n (.inUse true range levels)).raiseConfigEdits levels allPorts) := by
  unfold State.lockRegion
  cases hn : regionOfByte (r.byte 0) with
  | none => simp
  | some n =>
    simp only [Option.some.injEq]
    cases he : s.region n with
    | unused => simp [he]
    | inUse locked range levels => cases locked <;> simp [he, eq_comm (a := t)]

/-- R125, R126: a SET_BOOT enables a disabled record onto two distinct regions in use, or disables a record. -/
theorem State.setBoot_eq_some (s t : State) (r : Request) :
    s.setBoot r = some t ↔ ∃ p b, portOfByte (r.byte 0) = some p ∧ r.storedBoot = some b
      ∧ (b.enabled = true ∧ ((s.port p).boot.enabled = false ∧ b.slotA ≠ b.slotB ∧ s.region b.slotA ≠ .unused
            ∧ s.region b.slotB ≠ .unused) ∧ t = s.enableBoot p b
        ∨ b.enabled = false ∧ t = s.disableBoot p b) := by
  have hused : ∀ n, (!(s.region n).isInUse) = true ↔ s.region n = .unused := fun n => by
    rw [← RegionEntry.range?_eq_none]; simp [RegionEntry.isInUse]
  unfold State.setBoot
  constructor
  · intro h
    split at h
    · next p b hp hb =>
      refine ⟨p, b, hp, hb, ?_⟩
      split at h
      · next he =>
        split at h
        · cases h
        · next hok =>
          simp only [hused, not_or, Bool.not_eq_true] at hok
          cases h
          exact .inl ⟨he, hok, rfl⟩
      · next he => cases h; exact .inr ⟨Bool.not_eq_true _ ▸ he, rfl⟩
    · cases h
  · rintro ⟨p, b, hp, hb, ⟨he, hok, rfl⟩ | ⟨he, rfl⟩⟩
    · simp [hp, hb, he, hused, hok]
    · simp [hp, hb, he]

end Sys2Proof.Machine
end

section
/-! PROOFS. What each operation leaves of the configuration: the tables, the block, the snapshot of a write. -/

namespace Sys2Proof.Machine

open Sys2Proof

/-! ## Operations that leave the configuration alone -/

/-- What the consistency of the tables rests on: the tables, the block, the snapshot of a write in progress. -/
def State.config (s : State) : Tables × Option StoredImage × Option ConfigImage := (s.tables, s.block, s.writer.snapshot)

/-- The same configuration is as consistent. -/
theorem State.tablesConsistent_congr {s t : State} (h : t.config = s.config) (hs : s.tablesConsistent) :
    t.tablesConsistent := by
  obtain ⟨htables, hrest⟩ := Prod.mk.inj h
  obtain ⟨hblock, hsnapshot⟩ := Prod.mk.inj hrest
  rw [State.tablesConsistent_iff] at hs ⊢
  rw [htables, hblock, hsnapshot]
  exact hs

/-- A port changed off its windows and its boot record. -/
@[simp] theorem State.config_modPort (s : State) (p : Port) (f : PortState → PortState)
    (hw : (f (s.port p)).windows = (s.port p).windows) (hb : (f (s.port p)).boot = (s.port p).boot) :
    (s.modPort p f).config = s.config := by
  have hport : ∀ q, ((s.modPort p f).port q).windows = (s.port q).windows
      ∧ ((s.modPort p f).port q).boot = (s.port q).boot := by
    intro q
    rw [State.port_modPort]
    split
    · next e => subst e; exact ⟨hw, hb⟩
    · exact ⟨rfl, rfl⟩
  have htables : (s.modPort p f).tables = s.tables :=
    Tables.ext rfl (funext fun q => (hport q).1) (funext fun q => (hport q).2)
  rw [State.config, htables]
  rfl

@[simp] theorem State.config_modBank (s : State) (b : BankId) (f : Bank → Bank) : (s.modBank b f).config = s.config := rfl

@[simp] theorem State.config_raise (s : State) (p : Port) (e : Event) : (s.raise p e).config = s.config :=
  s.config_modPort p _ rfl rfl

@[simp] theorem State.config_refreshLed (s : State) : s.refreshLed.config = s.config := by
  obtain ⟨l, h⟩ := s.refreshLed_eq
  rw [h]
  rfl

/-- Bytes on the wire leave the configuration alone. -/
theorem State.OnWire.config {p : Port} {s t : State} (h : s.OnWire p t) : t.config = s.config := by
  obtain ⟨x, n, hx, rfl⟩ := h
  exact s.config_modPort p (fun _ => x) (by rw [hx]) (by rw [hx])

@[simp] theorem State.config_complete (s : State) (p : Port) (st : Status) (w : Bool) (data : List Byte) :
    (s.complete p st w data).config = s.config := by
  unfold State.complete
  split
  · rfl
  · exact s.config_modPort p _ rfl rfl

@[simp] theorem State.config_completeBare (s : State) (p : Port) (st : Status) :
    (s.completeBare p st).config = s.config := s.config_complete p st false []

@[simp] theorem State.config_closeStream (s : State) (p : Port) : (s.closeStream p).config = s.config := by
  unfold State.closeStream
  split
  · rfl
  · simp

@[simp] theorem State.config_flush (s : State) (p : Port) : (s.flush p).config = s.config := by
  have hwithdraw : ∀ u : State, (u.withdrawStore p).config = u.config := fun u => by
    unfold State.withdrawStore; split <;> rfl
  rw [State.flush, State.config_closeStream, hwithdraw]
  exact State.config_modPort _ p PortState.flush rfl rfl

@[simp] theorem State.config_cutTransaction (s : State) (p : Port) : (s.cutTransaction p).config = s.config := by
  unfold State.cutTransaction
  split
  · rfl
  · split
    · simp
    · rfl

/-! ## The Boot Supervisor -/

@[simp] theorem State.config_pulseStart (s : State) (p : Port) (c : Option Cause) :
    (s.pulseStart p c).config = s.config := by
  rw [State.pulseStart, State.config_modPort _ p (fun x => x.pulseStart c) rfl rfl]
  simp

@[simp] theorem State.config_enterFailed (s : State) (p : Port) : (s.enterFailed p).config = s.config := by
  rw [State.enterFailed, State.config_raise, State.config_modPort _ p PortState.enterFailed rfl rfl]
  simp

@[simp] theorem State.config_bootTimerExpiry (s : State) (p : Port) : (s.bootTimerExpiry p).config = s.config := by
  unfold State.bootTimerExpiry
  split
  · simp
  · dsimp only; split <;> simp
  · rfl

@[simp] theorem State.config_serviceCode (s : State) (p : Port) (code : Byte) :
    (s.serviceCode p code).config = s.config := by
  unfold State.serviceCode
  split
  · rfl
  · split <;> simp

@[simp] theorem State.config_watchdogHalf (s : State) (p : Port) : (s.watchdogHalf p).config = s.config := by
  unfold State.watchdogHalf
  split
  · simp
  · rfl

@[simp] theorem State.config_resetMaster (s : State) (p : Port) : (s.resetMaster p).config = s.config := by
  unfold State.resetMaster
  split <;> simp

/-! ## Banks -/

@[simp] theorem State.config_stopDeadline (s : State) (p : Port) : (s.stopDeadline p).config = s.config :=
  s.config_modPort p _ rfl rfl

@[simp] theorem State.config_takeGrant (s : State) (b : BankId) (p : Port) : (s.takeGrant b p).config = s.config :=
  State.config_stopDeadline _ p

/-- R70, R71: a grant leaves the configuration alone, whatever it grants. -/
@[simp] theorem State.config_grant (s : State) (b : BankId) (p : Port) (c : Candidate) :
    (s.grant b p c).config = s.config := by
  have hwrite : ∀ (u : State) (target : WriteTarget), (u.grantWrite b p target c.chunk).config = u.config :=
    fun u target => by unfold State.grantWrite; split <;> simp
  have hverify : ∀ (u : State) (sector : Nat), (u.grantVerify b p sector).config = u.config := fun u sector => by
    unfold State.grantVerify
    split
    · rfl
    · split
      · simp
      · rfl
  unfold State.grant
  cases c.target with
  | read first length => exact s.config_takeGrant b p
  | verifyChunk sector => exact (hverify _ sector).trans (s.config_takeGrant b p)
  | program page start data => exact (hwrite _ _).trans (s.config_takeGrant b p)
  | sectorErase sector => exact (hwrite _ _).trans (s.config_takeGrant b p)

@[simp] theorem State.config_startWrite (s : State) (b : BankId) (op : WriteOperation) :
    (s.startWrite b op).config = s.config := by
  have hmark : ∀ (ps : List Port) (u : State), (u.markDisturbed b op.target.sector ps).config = u.config := by
    intro ps
    induction ps with
    | nil => exact fun u => rfl
    | cons p rest ih =>
      intro u
      have hmarked : ∀ (x : PortState) (c : Option Candidate),
          (x.marked c op.target.sector).windows = x.windows ∧ (x.marked c op.target.sector).boot = x.boot := by
        intro x c
        unfold PortState.marked
        split
        · exact ⟨rfl, rfl⟩
        · split
          · exact ⟨rfl, rfl⟩
          · split <;> exact ⟨rfl, rfl⟩
      rw [u.markDisturbed_cons, ih]
      exact u.config_modPort p _ (hmarked _ _).1 (hmarked _ _).2
  exact hmark allPorts _

@[simp] theorem State.config_join (s : State) (b : BankId) (p : Port) (c : Candidate) :
    (s.join b p c).config = s.config := rfl

@[simp] theorem State.config_decideArm (s : State) (p : Port) (v : VerifyRecord) (a : Arming) (digest : Word) :
    (s.decideArm p v a digest).config = s.config := by
  unfold State.decideArm
  split
  · simp
  · split
    · simp
    · split <;> simp

@[simp] theorem State.config_returnChunk (s : State) (b : BankId) (p : Port) (v : VerifyRecord) (register : Word) :
    (s.returnChunk b p v register).config = s.config := by
  unfold State.returnChunk
  split
  · simp [State.setVerify]
  · split <;> simp

@[simp] theorem State.config_readComplete (s : State) (b : BankId) (op : ReadOperation) :
    (s.readComplete b op).config = s.config := by
  have hend : ∀ n, ({ (s.modBank b fun k => k.endRead op) with freeCount := n } : State).config = s.config := fun _ => rfl
  unfold State.readComplete
  dsimp only
  split
  · rfl
  · split
    · rw [State.config_complete, hend]
    · split
      · exact hend _
      · rw [State.config_returnChunk, hend]

@[simp] theorem State.config_programComplete (s : State) (b : BankId) (owner : Owner) (page start : Nat)
    (data : List Byte) : (s.programComplete b owner page start data).config = s.config := by
  cases owner with
  | orphan => rfl
  | port p => exact State.config_complete _ p _ _ _

@[simp] theorem State.config_eraseComplete (s : State) (b : BankId) (owner : Owner) (sector : Nat)
    (chunk : Option Nat) : (s.eraseComplete b owner sector chunk).config = s.config := by
  have hnext : ∀ (u : State) (p : Port), (u.nextErase b p chunk).config = u.config := fun u p => by
    unfold State.nextErase
    split
    · split <;> simp
    · simp
  cases owner with
  | orphan => rfl
  | port p => exact hnext _ p

/-! ## Presentations of no edit of a table -/

@[simp] theorem State.config_carryOut (s : State) (p : Port) (a : Admission) : (s.carryOut p a).config = s.config := by
  cases a <;> simp [State.carryOut]

@[simp] theorem State.config_presentReset (s : State) (p : Port) (r : Request) :
    (s.presentReset p r).config = s.config := by
  unfold State.presentReset
  split <;> simp

theorem State.config_setPortSettings {s t : State} {r : Request} (h : s.setPortSettings r = some t) :
    t.config = s.config := by
  unfold State.setPortSettings at h
  split at h
  · cases h; simp
  · cases h

theorem State.config_flushPort {s t : State} {r : Request} (h : s.flushPort r = some t) : t.config = s.config := by
  unfold State.flushPort at h
  split at h
  · cases h
  · split at h
    · cases h
    · cases h; simp

end Sys2Proof.Machine
end

section
/-! PROOFS. The operations that change a table, and that every command leaves the tables, the block and a snapshot
consistent. -/

namespace Sys2Proof.Machine

open Sys2Proof

/-! ## One port, one region -/

/-- A port changed to windows that are bound to regions in use and to a boot record that fits the region table. -/
theorem State.tablesConsistent_modPort {s : State} (h : s.tablesConsistent) (p : Port) (f : PortState → PortState)
    (hw : ∀ (w : Fin 4) n, (f (s.port p)).windows[w] = some n → (s.region n).range? ≠ none)
    (hb : (f (s.port p)).boot.Fits fun n => (s.region n).range?) : (s.modPort p f).tablesConsistent := by
  rw [State.tablesConsistent_iff] at h ⊢
  obtain ⟨⟨hlegal, hapart, hbound, hfits⟩, hstored⟩ := h
  refine ⟨⟨hlegal, hapart, fun q w n hn => ?_, fun q => ?_⟩, hstored⟩
  · simp only [State.tables, State.port_modPort] at hn
    split at hn
    · exact hw w n hn
    · exact hbound q w n hn
  · simp only [State.tables, State.port_modPort]
    split
    · exact hb
    · exact hfits q

/-- The boot record of every port fits the region table. -/
theorem State.tablesConsistent.boot {s : State} (h : s.tablesConsistent) (p : Port) :
    (s.port p).boot.Fits fun n => (s.region n).range? := (s.tablesConsistent_iff.1 h).1.fits p

/-- A bound window names a region in use. -/
theorem State.tablesConsistent.bound {s : State} (h : s.tablesConsistent) {p : Port} {w : Fin 4} {n : RegionId}
    (hn : (s.port p).windows[w] = some n) : (s.region n).range? ≠ none := (s.tablesConsistent_iff.1 h).1.bound p w n hn

/-- R41: the slots of an enabled record name regions in use. -/
theorem StoredBoot.Fits.slot {b : StoredBoot} {range : RegionId → Option SectorRange} (h : b.Fits range)
    (he : b.enabled = true) (t : Slot) : range (b.slot t) ≠ none := by
  obtain ⟨-, ha, hb⟩ := h.slots he
  cases t with
  | a => exact ha
  | b => exact hb

/-- A boot record changed, whatever else of the port off its windows. -/
theorem State.tablesConsistent_setBootRecord {s : State} (h : s.tablesConsistent) (p : Port) (f : PortState → PortState)
    (hw : (f (s.port p)).windows = (s.port p).windows) (hb : (f (s.port p)).boot.Fits fun n => (s.region n).range?) :
    (s.modPort p f).tablesConsistent :=
  State.tablesConsistent_modPort h p f (fun w n hn => h.bound (p := p) (w := w) (by rw [← hw]; exact hn)) hb

/-- R37: a window bound to a region in use, or unbound. -/
theorem State.tablesConsistent_setWindow {s : State} (h : s.tablesConsistent) (p : Port) (w : Fin 4)
    (target : Option RegionId) (ht : ∀ n, target = some n → (s.region n).range? ≠ none) :
    (s.setWindow p w target).tablesConsistent := by
  refine State.tablesConsistent_modPort h p _ (fun w' n hn => ?_) (h.boot p)
  simp only [Fin.getElem_fin, Vector.getElem_set] at hn
  split at hn
  · exact ht n hn
  · exact h.bound (w := w') hn

/-- R41: W0 and W1 bound to regions in use. -/
theorem State.tablesConsistent_bindBoot {s : State} (h : s.tablesConsistent) (p : Port) (w0 w1 : RegionId)
    (h0 : (s.region w0).range? ≠ none) (h1 : (s.region w1).range? ≠ none) : (s.bindBoot p w0 w1).tablesConsistent :=
  State.tablesConsistent_setWindow (State.tablesConsistent_setWindow h p 0 _ fun _ hn => Option.some.inj hn ▸ h0) p 1 _
    fun _ hn => Option.some.inj hn ▸ h1

/-- The ranges after a region entry is replaced. -/
theorem State.range_setRegion (s : State) (n m : RegionId) (e : RegionEntry) :
    (s.setRegion n e).tables.range m = if m = n then e.range? else s.tables.range m := by
  simp only [State.tables, State.region_setRegion]
  split <;> rfl

/-- A region entry replaced by one of the same range. -/
theorem State.config_setRegion (s : State) (n : RegionId) (e : RegionEntry) (h : e.range? = (s.region n).range?) :
    (s.setRegion n e).config = s.config := by
  have htables : (s.setRegion n e).tables = s.tables := by
    refine Tables.ext (funext fun m => ?_) rfl rfl
    rw [State.range_setRegion]
    split
    · next he => rw [he]; exact h
    · rfl
  rw [State.config, htables]
  rfl

/-- R34: an entry takes a legal range that shares no sector with any other. -/
theorem State.tablesConsistent_define {s : State} (h : s.tablesConsistent) (n : RegionId) (range : SectorRange)
    (levels : Vector Level 4) (hlegal : range.legal = true)
    (hfree : ∀ m q, (s.region m).range? = some q → q.overlaps range = false) :
    (s.setRegion n (.inUse false range levels)).tablesConsistent := by
  have hrange := fun m => s.range_setRegion n m (.inUse false range levels)
  have hkept : ∀ m, s.tables.range m ≠ none → (s.setRegion n (.inUse false range levels)).tables.range m ≠ none :=
    fun m hm => by
      rw [hrange]; split
      · simp [RegionEntry.range?]
      · exact hm
  rw [State.tablesConsistent_iff] at h ⊢
  obtain ⟨⟨hlegals, hapart, hbound, hfits⟩, hstored⟩ := h
  refine ⟨⟨fun m q hq => ?_, fun m k q r hne hq hr => ?_, fun p w m hm => hkept m (hbound p w m hm), fun p => ?_⟩, hstored⟩
  · rw [hrange] at hq
    split at hq
    · exact Option.some.inj hq ▸ hlegal
    · exact hlegals m q hq
  · rw [hrange] at hq hr
    split at hq
    · next hmn =>
      rw [if_neg fun hkn => hne (hmn.trans hkn.symm)] at hr
      rw [← Option.some.inj hq, SectorRange.overlaps_comm]
      exact hfree k r hr
    · split at hr
      · exact Option.some.inj hr ▸ hfree m q hq
      · exact hapart m k q r hne hq hr
  · refine ⟨(hfits p).limit, fun he => ?_⟩
    obtain ⟨hne, ha, hb⟩ := (hfits p).slots he
    exact ⟨hne, hkept _ ha, hkept _ hb⟩

/-- R35: an entry that no window and no enabled record names becomes UNUSED. -/
theorem State.tablesConsistent_clear {s : State} (h : s.tablesConsistent) (n : RegionId)
    (hbound : s.isBound n = false) (hslot : s.isEnabledSlot n = false) :
    (s.setRegion n .unused).tablesConsistent := by
  have hrange := fun m => s.range_setRegion n m .unused
  have hkept : ∀ m q, (s.setRegion n .unused).tables.range m = some q → s.tables.range m = some q := fun m q hq => by
    rw [hrange] at hq; split at hq
    · cases hq
    · exact hq
  have hstays : ∀ m, m ≠ n → s.tables.range m ≠ none → (s.setRegion n .unused).tables.range m ≠ none := fun m hm hr => by
    rw [hrange, if_neg hm]; exact hr
  rw [State.isBound_eq_false] at hbound
  rw [State.isEnabledSlot_eq_false] at hslot
  rw [State.tablesConsistent_iff] at h ⊢
  obtain ⟨⟨hlegal, hapart, hwindows, hfits⟩, hstored⟩ := h
  refine ⟨⟨fun m q hq => hlegal m q (hkept m q hq),
    fun m k q r hne hq hr => hapart m k q r hne (hkept m q hq) (hkept k r hr), fun p w m hm => ?_, fun p => ?_⟩, hstored⟩
  · exact hstays m (fun e => hbound p w (e ▸ hm)) (hwindows p w m hm)
  · refine ⟨(hfits p).limit, fun he => ?_⟩
    obtain ⟨hne, ha, hb⟩ := (hfits p).slots he
    obtain ⟨hna, hnb⟩ := hslot p he
    exact ⟨hne, hstays _ hna ha, hstays _ hnb hb⟩

/-! ## Edits (R33 to R38, R125, R126) -/

theorem State.config_raiseConfigEdits (s : State) (levels : Vector Level 4) (ps : List Port) :
    (s.raiseConfigEdits levels ps).config = s.config := by
  induction ps generalizing s with
  | nil => rfl
  | cons p rest ih =>
    rw [State.raiseConfigEdits, ih]
    split
    · rfl
    · exact s.config_raise p _

theorem State.tablesConsistent_defineRegion {s t : State} {r : Request} (h : s.tablesConsistent)
    (ht : s.defineRegion r = some t) : t.tablesConsistent := by
  obtain ⟨n, -, -, hlegal, hfree, rfl⟩ := (s.defineRegion_eq_some t r).1 ht
  exact State.tablesConsistent_define h n _ _ hlegal hfree

theorem State.tablesConsistent_clearRegion {s t : State} {r : Request} (h : s.tablesConsistent)
    (ht : s.clearRegion r = some t) : t.tablesConsistent := by
  obtain ⟨n, -, -, hbound, hslot, rfl⟩ := (s.clearRegion_eq_some t r).1 ht
  exact State.tablesConsistent_clear h n hbound hslot

theorem State.tablesConsistent_setAccess {s t : State} {r : Request} (h : s.tablesConsistent)
    (ht : s.setAccess r = some t) : t.tablesConsistent := by
  obtain ⟨n, p, new, locked, range, levels, -, -, -, hn, ⟨-, rfl⟩ | ⟨-, -, rfl⟩⟩ := (s.setAccess_eq_some t r).1 ht
  · exact h
  · refine State.tablesConsistent_congr ((State.config_raise _ p _).trans ?_) h
    exact s.config_setRegion n _ (by rw [hn]; rfl)

theorem State.tablesConsistent_bindView {s t : State} {r : Request} (h : s.tablesConsistent)
    (ht : s.bindView r = some t) : t.tablesConsistent := by
  obtain ⟨p, w, target, -, -, -, -, hused, ⟨-, rfl⟩ | ⟨-, rfl⟩⟩ := (s.bindView_eq_some t r).1 ht
  · exact h
  · refine State.tablesConsistent_congr (State.config_raise _ p _) (State.tablesConsistent_setWindow h p w target ?_)
    exact fun n hn => mt (RegionEntry.range?_eq_none _).1 (hused n hn)

theorem State.tablesConsistent_lockRegion {s t : State} {r : Request} (h : s.tablesConsistent)
    (ht : s.lockRegion r = some t) : t.tablesConsistent := by
  obtain ⟨n, locked, range, levels, -, hn, ⟨-, rfl⟩ | ⟨-, rfl⟩⟩ := (s.lockRegion_eq_some t r).1 ht
  · exact h
  · refine State.tablesConsistent_congr ((State.config_raiseConfigEdits _ levels allPorts).trans ?_) h
    exact s.config_setRegion n _ (by rw [hn]; rfl)

/-- R125: a record enabled onto two distinct regions in use. -/
theorem State.tablesConsistent_enableBoot {s : State} (h : s.tablesConsistent) (p : Port) (b : StoredBoot)
    (hb : b.Fits fun n => (s.region n).range?) (he : b.enabled = true) : (s.enableBoot p b).tablesConsistent := by
  have hbound := State.tablesConsistent_bindBoot
    (State.tablesConsistent_setBootRecord h p (fun x => { x with boot := b, trial := none, attempts := 0 }) rfl hb) p
    b.activeRegion b.alternateRegion (hb.slot he _) (hb.slot he _)
  unfold State.enableBoot
  dsimp only
  split
  · exact State.tablesConsistent_congr (by simp) hbound
  · exact State.tablesConsistent_congr (by rw [State.config_modPort _ p PortState.enterRunning rfl rfl]; simp) hbound

theorem State.tablesConsistent_setBoot {s t : State} {r : Request} (h : s.tablesConsistent)
    (ht : s.setBoot r = some t) : t.tablesConsistent := by
  obtain ⟨p, b, -, hb, hcase⟩ := (s.setBoot_eq_some t r).1 ht
  obtain ⟨-, -, hlimit, -⟩ := (r.storedBoot_eq_some b).1 hb
  have hlimit := ((limitOfByte_eq_some _ _).1 hlimit).2
  rcases hcase with ⟨he, ⟨-, hne, ha, hb⟩, rfl⟩ | ⟨he, rfl⟩
  · refine State.tablesConsistent_enableBoot h p b ⟨hlimit, fun _ => ⟨hne, ?_, ?_⟩⟩ he
    · exact mt (RegionEntry.range?_eq_none _).1 ha
    · exact mt (RegionEntry.range?_eq_none _).1 hb
  · exact State.tablesConsistent_setBootRecord h p _ rfl ⟨hlimit, fun he' => by simp [he] at he'⟩

theorem State.tablesConsistent_settleEdit {s : State} (h : s.tablesConsistent) (p : Port) (o : Option State)
    (ho : ∀ t, o = some t → t.tablesConsistent) : (s.settleEdit p o).tablesConsistent := by
  cases o with
  | none => exact State.tablesConsistent_congr (s.config_completeBare p _) h
  | some t => exact State.tablesConsistent_congr (t.config_completeBare p _) (ho t rfl)

/-- R33, R49: a presented request leaves the tables consistent, by its kind. -/
theorem State.tablesConsistent_examineKind {s : State} (h : s.tablesConsistent) (p : Port) (r : Request) :
    (s.examineKind p r).tablesConsistent := by
  unfold State.examineKind
  cases r.kind with
  | read | program | eraseSector | eraseRegion | verify | armTrial =>
    exact State.tablesConsistent_congr (s.config_carryOut p _) h
  | defineRegion => exact State.tablesConsistent_settleEdit h p _ fun t => State.tablesConsistent_defineRegion h
  | clearRegion => exact State.tablesConsistent_settleEdit h p _ fun t => State.tablesConsistent_clearRegion h
  | setAccess => exact State.tablesConsistent_settleEdit h p _ fun t => State.tablesConsistent_setAccess h
  | bindView => exact State.tablesConsistent_settleEdit h p _ fun t => State.tablesConsistent_bindView h
  | lockRegion => exact State.tablesConsistent_settleEdit h p _ fun t => State.tablesConsistent_lockRegion h
  | setBoot => exact State.tablesConsistent_settleEdit h p _ fun t => State.tablesConsistent_setBoot h
  | setPort =>
    exact State.tablesConsistent_settleEdit h p _ fun t ht =>
      State.tablesConsistent_congr (State.config_setPortSettings ht) h
  | resetMaster => exact State.tablesConsistent_congr (s.config_presentReset p r) h
  | flushPort =>
    exact State.tablesConsistent_settleEdit h p _ fun t ht => State.tablesConsistent_congr (State.config_flushPort ht) h
  | storeConfig => exact State.tablesConsistent_congr (s := s) rfl h

theorem State.tablesConsistent_present {s : State} (h : s.tablesConsistent) (p : Port) :
    (s.present p).tablesConsistent := by
  unfold State.present
  split
  · next q rest _ _ =>
    have hcurrent : (s.modPort p fun x => { x with queue := rest, current := some q.toCurrent }).tablesConsistent :=
      State.tablesConsistent_congr (by simp) h
    unfold State.presentQueued
    dsimp only
    split
    · exact State.tablesConsistent_congr (State.config_completeBare _ p _) hcurrent
    · split
      · exact State.tablesConsistent_congr (State.config_completeBare _ p _) hcurrent
      · exact State.tablesConsistent_examineKind hcurrent p _
  · exact h

/-! ## The Boot Supervisor and the Configuration Store -/

/-- R112: the release of a pulse binds W0 and W1 to slots of an enabled record. -/
theorem State.tablesConsistent_pulseRelease {s : State} (h : s.tablesConsistent) (p : Port) :
    (s.pulseRelease p).tablesConsistent := by
  have hstop : (s.modPort p fun x => { x with pulse := .stopped }).tablesConsistent :=
    State.tablesConsistent_congr (by simp) h
  unfold State.pulseRelease
  dsimp only
  split
  · next he =>
    have hslot := (h.boot p).slot he
    split
    · next t _ =>
      refine State.tablesConsistent_congr (State.config_modPort _ p _ rfl rfl) ?_
      exact State.tablesConsistent_bindBoot hstop p _ _ (hslot t) (hslot _)
    · refine State.tablesConsistent_congr (State.config_modPort _ p _ rfl rfl) ?_
      exact State.tablesConsistent_bindBoot hstop p _ _ (hslot _) (hslot _)
  · exact hstop

/-- R118: a confirmation in TRIAL, where the record is enabled, binds W0 and W1 to its slots. -/
theorem State.tablesConsistent_confirm {s : State} (h : s.tablesConsistent) (p : Port)
    (hl : (s.port p).bootLegal) : (s.confirm p).tablesConsistent := by
  unfold State.confirm
  dsimp only
  split
  · exact State.tablesConsistent_congr (s.config_modPort p _ rfl rfl) h
  · next t hstate htrial =>
    have he : (s.port p).boot.enabled = true := by
      obtain ⟨-, -, -, -, hoff, -⟩ := hl
      rw [← Bool.not_eq_false, ← hoff, hstate]
      simp
    have hfits := h.boot p
    have hactive := State.tablesConsistent_setBootRecord h p
      (fun x => { x.enterRunning with attempts := 0, trial := none, boot := { x.boot with active := t } }) rfl
      ⟨hfits.limit, hfits.slots⟩
    exact State.tablesConsistent_congr (t := (State.requestCommit _)) rfl
      (State.tablesConsistent_bindBoot hactive p _ _ (hfits.slot he _) (hfits.slot he _))
  · exact h

/-- R134: a write takes a snapshot of consistent tables and gives up the block's image. -/
theorem State.tablesConsistent_beginWrite {s : State} (h : s.tablesConsistent) : s.beginWrite.tablesConsistent := by
  rw [State.tablesConsistent_iff] at h ⊢
  obtain ⟨htables, -, -⟩ := h
  refine ⟨htables, fun b hb => (Option.some_ne_none b hb.symm).elim, fun i hi => ?_⟩
  cases hi
  rw [s.tables_snapshot]
  exact htables

/-- R137: the write of a consistent snapshot stores a valid image. -/
theorem State.tablesConsistent_completeWrite {s : State} (h : s.tablesConsistent) (image : ConfigImage)
    (hi : s.writer.snapshot = some image) : (s.completeWrite image).tablesConsistent := by
  rw [State.tablesConsistent_iff] at h
  obtain ⟨htables, -, hsnapshot⟩ := h
  have hstored : ({ s with
      block := some image.withCheck
      writer := { s.writer with snapshot := none, carried := false } } : State).tablesConsistent := by
    rw [State.tablesConsistent_iff]
    refine ⟨htables, fun b hb => ?_, fun i hi => by cases hi⟩
    cases hb
    rw [ConfigImage.valid_withCheck, ConfigImage.consistent_iff]
    exact hsnapshot image hi
  unfold State.completeWrite
  dsimp only
  split
  · exact State.tablesConsistent_congr (by simp) hstored
  · exact State.tablesConsistent_congr (by simp) hstored

/-- R142: the tables filled from an image are the image's, and the block and the snapshot are as they were. -/
theorem State.fillTables_config (s : State) (i : ConfigImage) :
    (s.fillTables i).tables = i.tables ∧ (s.fillTables i).block = s.block ∧ (s.fillTables i).writer = s.writer := by
  have hport : ∀ p, (s.fillTables i).port p
      = { s.port p with windows := i.windows[p], boot := i.boot[p], settings := i.settings[p] } := fun p => by
    simp only [State.fillTables, allPorts, List.foldl_cons, List.foldl_nil, State.fillPort, State.port_modPort]
    fin_cases p <;> rfl
  refine ⟨Tables.ext (funext fun n => ?_) (funext fun p => ?_) (funext fun p => ?_), rfl, rfl⟩
  · show ((i.regions.map RegionEntry.stored)[n]).range? = (i.regions[n]).range?
    simp
  · exact congrArg PortState.windows (hport p)
  · exact congrArg PortState.boot (hport p)

/-- R143: the default tables are consistent, whichever port is the administrator. -/
theorem defaultImage_consistent (admin : Port) : (defaultImage admin).consistent = true := by
  revert admin
  decide +kernel

/-- R142, R143: the load fills the tables from a valid image or from the defaults. -/
theorem State.tablesConsistent_loadTables {s : State} (h : s.tablesConsistent) : s.loadTables.tablesConsistent := by
  have hfill : ∀ i : ConfigImage, i.consistent = true → (s.fillTables i).tablesConsistent := fun i hi => by
    rw [State.tablesConsistent_iff] at h ⊢
    obtain ⟨htables, hblock, hwriter⟩ := s.fillTables_config i
    rw [htables, hblock, hwriter]
    exact ⟨i.consistent_iff.1 hi, h.2⟩
  have hpulses : ∀ (ps : List Port) (u : State), (ps.foldl (fun v p => v.pulseStart p none) u).config = u.config := by
    intro ps
    induction ps with
    | nil => exact fun u => rfl
    | cons p rest ih => exact fun u => (ih _).trans (u.config_pulseStart p none)
  have hready : ∀ u : State, u.tablesConsistent →
      (allPorts.foldl (fun (v : State) p => v.pulseStart p none) { u with startUp := .ready }).tablesConsistent := fun u hu =>
    State.tablesConsistent_congr (s := u) (hpulses allPorts _) hu
  unfold State.loadTables
  refine hready _ ?_
  split
  · next i hi =>
    obtain ⟨x, -, hvalid, rfl⟩ := (validImage_eq_some s.block i).1 hi
    exact hfill _ ((Bool.and_eq_true _ _).mp hvalid).2
  · exact State.tablesConsistent_congr (State.config_raise _ _ _) (hfill _ (defaultImage_consistent s.admin))

/-- R20, R132, R139: a reset leaves the tables as at power-on, and no image in the block where a write is cut. -/
theorem State.tablesConsistent_hardReset {s : State} (h : s.tablesConsistent) (u : StartUp) (causes : Port → Byte) :
    (s.hardReset u causes).tablesConsistent := by
  have hreset := (State.tablesConsistent_iff _).1 resetHasEveryInvariant.2.2.2.2.1
  have htables : (s.hardReset u causes).tables = State.reset.tables := by
    refine Tables.ext (funext fun n => ?_) (funext fun p => ?_) (funext fun p => ?_)
    · simp [State.tables, State.region, State.reset, State.hardReset]
    · simp [State.tables, State.resetPort, PortState.reset]
    · simp [State.tables, State.resetPort, PortState.reset]
  rw [State.tablesConsistent_iff] at h ⊢
  refine ⟨htables ▸ hreset.1, fun b hb => ?_, fun i hi => by cases hi⟩
  rw [State.block_hardReset] at hb
  split at hb
  · exact h.2.1 b hb
  · cases hb

/-! ## Every command -/

theorem State.tablesConsistent_internalStep {s t : State} (hs : s.tablesConsistent) (h : s.internalStep = some t) :
    t.tablesConsistent := by
  rcases State.internalStep_cases h with ⟨p, -, rfl⟩ | ⟨-, rfl⟩ | ⟨b, hb⟩
  · exact State.tablesConsistent_present hs p
  · exact State.tablesConsistent_beginWrite hs
  · rcases hb with ⟨op, -, rfl⟩ | ⟨-, p, c, -, rfl⟩ | ⟨-, -, -, rfl⟩ | ⟨-, -, -, -, rfl⟩
    · exact State.tablesConsistent_congr (s.config_startWrite b op) hs
    · exact State.tablesConsistent_congr (s.config_grant b p c) hs
    · exact State.tablesConsistent_congr (s.config_modBank b _) hs
    · exact State.tablesConsistent_congr (s.config_modBank b _) hs

/-- What is due inside an event leaves the tables consistent. -/
theorem State.tablesConsistent_finish {s : State} (h : s.tablesConsistent) : s.finish.tablesConsistent :=
  State.finish_induction State.tablesConsistent (fun _ _ => State.tablesConsistent_internalStep)
    (fun u => State.tablesConsistent_congr u.config_refreshLed) s h

/-- R151: the effect of a deselect leaves the tables consistent; a CONFIRM_BOOT binds windows of a legal record. -/
theorem State.tablesConsistent_takeEffect {s : State} (h : s.tablesConsistent) (p : Port) (hl : (s.port p).bootLegal)
    (silenced : Bool) (answered : Nat) (e : Effect) : (s.takeEffect p silenced answered e).tablesConsistent := by
  by_cases hconfirm : e = .confirmBoot
  · subst hconfirm; exact State.tablesConsistent_confirm h p hl
  · refine State.tablesConsistent_congr ?_ h
    unfold State.takeEffect
    split
    · rfl
    · exact s.config_modPort p _ rfl rfl
    · simp
    · simp
    · exact s.config_modPort p _ rfl rfl
    · simp
    · simp
    · exact absurd rfl hconfirm
    · exact s.config_serviceCode p _
    · exact s.config_pulseStart p _
    · rfl
    · split
      · simp
      · rfl
    · rfl

/-- R151, R152: the deselect leaves the tables consistent. -/
theorem State.tablesConsistent_deselect {s : State} (h : s.tablesConsistent) (p : Port) (hl : (s.port p).bootLegal) :
    (s.deselect p).tablesConsistent := by
  unfold State.deselect
  split
  · exact h
  · next tr _ =>
    have hgone : (s.modPort p fun x => { x with selected := false, transaction := none }).tablesConsistent :=
      State.tablesConsistent_congr (by simp) h
    unfold State.endTransaction
    dsimp only
    split
    · split
      · exact State.tablesConsistent_congr (State.config_raise _ p _) hgone
      · refine State.tablesConsistent_takeEffect (State.tablesConsistent_congr (State.config_closeStream _ p) hgone) p ?_ _ _ _
        rw [State.port_closeStream, if_pos rfl, State.port_modPort_self]
        exact hl
    · exact hgone

/-- An event leaves the tables consistent: a deselect for the boot records are legal. -/
theorem State.EventEffect.tablesConsistent {s u : State} {c : Instr} (h : s.EventEffect c u) (hs : s.tablesConsistent)
    (hl : ∀ p, (s.port p).bootLegal) : u.tablesConsistent := by
  cases h with
  | load => exact State.tablesConsistent_loadTables hs
  | deselect p bytes tr _ _ =>
    have hwire := s.takeBytes_onWire p tr bytes
    refine State.tablesConsistent_deselect (State.tablesConsistent_congr hwire.config hs) p ?_
    rw [hwire.port p]
    exact hl p
  | holdLimit p bytes tr _ _ _ =>
    refine State.tablesConsistent_congr ?_ hs
    rw [State.config_closeStream, State.config_cutTransaction, (s.takeBytes_onWire p tr bytes).config]
  | present p _ => exact State.tablesConsistent_present hs p
  | expire p b cur _ _ _ => exact State.tablesConsistent_congr (State.config_completeBare _ p _) hs
  | grantRead b p entry _ _ => exact State.tablesConsistent_congr (s.config_grant b p entry) hs
  | grantWrite b p entry _ _ => exact State.tablesConsistent_congr (s.config_grant b p entry) hs
  | startWrite b op _ => exact State.tablesConsistent_congr (s.config_startWrite b op) hs
  | suspendComplete b op _ => exact State.tablesConsistent_congr (s.config_modBank b _) hs
  | resume b _ => exact State.tablesConsistent_congr (s.config_modBank b _) hs
  | readComplete b op _ => exact State.tablesConsistent_congr (s.config_readComplete b op) hs
  | programComplete b owner page start data _ _ =>
    exact State.tablesConsistent_congr (s.config_programComplete b owner page start data) hs
  | eraseComplete b st owner sector chunk _ _ =>
    exact State.tablesConsistent_congr (s.config_eraseComplete b owner sector chunk) hs
  | pulseRelease p _ => exact State.tablesConsistent_pulseRelease hs p
  | bootTimerExpiry p _ => exact State.tablesConsistent_congr (s.config_bootTimerExpiry p) hs
  | watchdogExpiry p _ => exact State.tablesConsistent_congr (s.config_pulseStart p _) hs
  | beginWrite _ => exact State.tablesConsistent_beginWrite hs
  | completeWrite image hi => exact State.tablesConsistent_completeWrite hs image hi

/-- Every answer leaves the tables, the block and a snapshot consistent. -/
theorem State.Answer.tablesConsistent {s t : State} {c : Instr} (h : s.Answer c t) (hs : s.tablesConsistent)
    (hl : ∀ p, (s.port p).bootLegal) : t.tablesConsistent := by
  have hwire : ∀ {p u}, s.OnWire p u → u.tablesConsistent := fun hu => State.tablesConsistent_congr hu.config hs
  cases h with
  | noEvent => exact hs
  | powerOnReset | deviceReset | lossOfPower =>
    exact State.tablesConsistent_congr (State.config_refreshLed _) (State.tablesConsistent_hardReset hs _ _)
  | startUpBegin => exact State.tablesConsistent_congr (s := s) rfl hs
  | selectUnpowered start _ _ => exact hwire (s.select_onWire start.port true)
  | deselectIdle p bytes _ => exact hwire (s.select_onWire p false)
  | beginsIgnored start _ _ _ => exact hwire (s.beginTransaction_onWire start.port _ _)
  | beginsFraming start _ _ _ _ => exact hwire (s.beginTransaction_onWire start.port _ _)
  | frame _ p bytes d n _ => exact hwire (s.endFrame_onWire p bytes d n)
  | notReady p a n b _ _ => exact State.tablesConsistent_congr (State.endFrame_onWire _ p _ _ n).config hs
  | go p a n stream _ _ =>
    refine State.tablesConsistent_congr (State.endFrame_onWire _ p _ _ n).config ?_
    exact State.tablesConsistent_congr (s.config_modPort p (fun x => { x with stream := some stream }) rfl rfl) hs
  | pass p a n _ => exact hwire (s.passFrame_onWire p _)
  | untimed p bytes tr _ _ _ => exact hwire (s.takeBytes_onWire p tr bytes)
  | markExpired p place q _ _ => exact State.tablesConsistent_congr (s.config_modPort p _ rfl rfl) hs
  | watchdogHalf p => exact State.tablesConsistent_congr (s.config_watchdogHalf p) hs
  | event _ u hu => exact State.tablesConsistent_finish (hu.tablesConsistent hs hl)

/-- Settles O56, by the answers of all commands: an edit is made only where the tables stay consistent, and the windows
that a boot binds are slots of an enabled record. -/
theorem tablesStayConsistent : Obligations.TablesStayConsistent := by
  intro s t _ hlegal hs hstep
  rcases step_answer s t hstep with rfl | ⟨c, rest, -, hexec⟩
  · exact hs
  · exact (exec_answer c _ t hexec).tablesConsistent (s := { s with pending := rest }) hs hlegal.1

end Sys2Proof.Machine
end

section
/-! PROOFS. The presentation of an allowed request: its port's current request does not matter to the checks and the edits,
and what an edit or an admission comes to. -/

namespace Sys2Proof.Machine

open Sys2Proof

/-! ## The current request does not matter to the tables -/

/-- Two ports replaced, in either order. -/
theorem State.setPort_comm (s : State) {p q : Port} (h : p ≠ q) (x y : PortState) :
    (s.setPort p x).setPort q y = (s.setPort q y).setPort p x := by
  have hval : p.val ≠ q.val := fun e => h (Fin.ext e)
  simp only [State.setPort, Vector.set_comm _ _ hval]

/-- The ports after a request is made current. -/
theorem State.port_madeCurrent (s : State) (p q : Port) (rest : List Queued) (cur : Current) :
    (s.madeCurrent p rest cur).port q
      = if q = p then { s.port p with queue := rest, current := some cur } else s.port q := s.port_setPort p q _

@[simp] theorem State.region_madeCurrent (s : State) (p : Port) (rest : List Queued) (cur : Current) (n : RegionId) :
    (s.madeCurrent p rest cur).region n = s.region n := rfl

@[simp] theorem State.windows_madeCurrent (s : State) (p q : Port) (rest : List Queued) (cur : Current) :
    ((s.madeCurrent p rest cur).port q).windows = (s.port q).windows := by
  rw [State.port_madeCurrent]; split
  · next h => rw [h]
  · rfl

@[simp] theorem State.window_madeCurrent (s : State) (p q : Port) (rest : List Queued) (cur : Current) (w : Fin 4) :
    ((s.madeCurrent p rest cur).port q).window w = (s.port q).window w := by
  rw [PortState.window, State.windows_madeCurrent, PortState.window]

@[simp] theorem State.boot_madeCurrent (s : State) (p q : Port) (rest : List Queued) (cur : Current) :
    ((s.madeCurrent p rest cur).port q).boot = (s.port q).boot := by
  rw [State.port_madeCurrent]; split
  · next h => rw [h]
  · rfl

@[simp] theorem State.trial_madeCurrent (s : State) (p q : Port) (rest : List Queued) (cur : Current) :
    ((s.madeCurrent p rest cur).port q).trial = (s.port q).trial := by
  rw [State.port_madeCurrent]; split
  · next h => rw [h]
  · rfl

@[simp] theorem State.bootState_madeCurrent (s : State) (p q : Port) (rest : List Queued) (cur : Current) :
    ((s.madeCurrent p rest cur).port q).bootState = (s.port q).bootState := by
  rw [State.port_madeCurrent]; split
  · next h => rw [h]
  · rfl

@[simp] theorem State.pulse_madeCurrent (s : State) (p q : Port) (rest : List Queued) (cur : Current) :
    ((s.madeCurrent p rest cur).port q).pulse = (s.port q).pulse := by
  rw [State.port_madeCurrent]; split
  · next h => rw [h]
  · rfl

/-- A change of a port that neither reads nor writes its queue and current request. -/
theorem State.modPort_madeCurrent (s : State) (p t : Port) (rest : List Queued) (cur : Current)
    (f : PortState → PortState)
    (hf : ∀ x : PortState, f { x with queue := rest, current := some cur } = { f x with queue := rest, current := some cur }) :
    (s.madeCurrent p rest cur).modPort t f = (s.modPort t f).madeCurrent p rest cur := by
  rw [State.modPort, State.port_madeCurrent, State.madeCurrent, State.madeCurrent, State.port_modPort, State.modPort]
  by_cases h : t = p
  · subst h; simp [hf]
  · rw [if_neg h, if_neg fun e => h e.symm, State.setPort_comm _ fun e => h e.symm]

theorem State.raise_madeCurrent (s : State) (p t : Port) (rest : List Queued) (cur : Current) (e : Event) :
    (s.madeCurrent p rest cur).raise t e = (s.raise t e).madeCurrent p rest cur :=
  s.modPort_madeCurrent p t rest cur _ fun _ => rfl

theorem State.setWindow_madeCurrent (s : State) (p t : Port) (rest : List Queued) (cur : Current) (w : Fin 4)
    (r : Option RegionId) :
    (s.madeCurrent p rest cur).setWindow t w r = (s.setWindow t w r).madeCurrent p rest cur :=
  s.modPort_madeCurrent p t rest cur _ fun _ => rfl

/-! ## Checks and protection -/

/-- R29: the first three checks do not see the current request. -/
@[simp] theorem State.access_madeCurrent (s : State) (p t : Port) (rest : List Queued) (cur : Current)
    (a : LogicalAddress) (need : Level) (demand : Nat → Nat → Bool) :
    (s.madeCurrent p rest cur).access t a need demand = s.access t a need demand := by
  simp only [State.access, State.window_madeCurrent, State.region_madeCurrent]

/-- R31: protection rests on the region table, the boot records and the trials. -/
theorem State.protectedRegion_congr {s t : State} (n : RegionId) (hr : t.region n = s.region n)
    (hb : ∀ p, (t.port p).boot = (s.port p).boot) (ht : ∀ p, (t.port p).trial = (s.port p).trial) :
    t.protectedRegion n = s.protectedRegion n := by
  simp only [State.protectedRegion, hr, hb, ht]

/-- R31, R32: protection of a sector rests on the region table, the boot records and the trials. -/
theorem State.protectedSector_congr {s t : State} (sector : Nat) (hr : ∀ n, t.region n = s.region n)
    (hb : ∀ p, (t.port p).boot = (s.port p).boot) (ht : ∀ p, (t.port p).trial = (s.port p).trial) :
    t.protectedSector sector = s.protectedSector sector := by
  have hp : ∀ n, t.protectedRegion n = s.protectedRegion n := fun n => State.protectedRegion_congr n (hr n) hb ht
  simp only [State.protectedSector, hr, hp]

@[simp] theorem State.protectedRegion_madeCurrent (s : State) (p : Port) (rest : List Queued) (cur : Current)
    (n : RegionId) : (s.madeCurrent p rest cur).protectedRegion n = s.protectedRegion n :=
  State.protectedRegion_congr n rfl (fun _ => by simp) (fun _ => by simp)

@[simp] theorem State.protectedSector_madeCurrent (s : State) (p : Port) (rest : List Queued) (cur : Current)
    (sector : Nat) : (s.madeCurrent p rest cur).protectedSector sector = s.protectedSector sector :=
  State.protectedSector_congr sector (fun _ => rfl) (fun _ => by simp) (fun _ => by simp)

/-! ## Edits -/

theorem State.defineRegion_madeCurrent (s : State) (p : Port) (rest : List Queued) (cur : Current) (r : Request) :
    (s.madeCurrent p rest cur).defineRegion r = (s.defineRegion r).map fun u => u.madeCurrent p rest cur := by
  unfold State.defineRegion
  split
  · rfl
  · dsimp only
    rw [apply_ite (Option.map _)]
    rfl

theorem State.clearRegion_madeCurrent (s : State) (p : Port) (rest : List Queued) (cur : Current) (r : Request) :
    (s.madeCurrent p rest cur).clearRegion r = (s.clearRegion r).map fun u => u.madeCurrent p rest cur := by
  have hbound : ∀ n, (s.madeCurrent p rest cur).isBound n = s.isBound n := fun n => by
    simp only [State.isBound, State.window_madeCurrent]
  have hslot : ∀ n, (s.madeCurrent p rest cur).isEnabledSlot n = s.isEnabledSlot n := fun n => by
    simp only [State.isEnabledSlot, State.boot_madeCurrent]
  unfold State.clearRegion
  split
  · rfl
  · simp only [State.region_madeCurrent, hbound, hslot]
    split
    · split <;> rfl
    · rfl

theorem State.setAccess_madeCurrent (s : State) (p : Port) (rest : List Queued) (cur : Current) (r : Request) :
    (s.madeCurrent p rest cur).setAccess r = (s.setAccess r).map fun u => u.madeCurrent p rest cur := by
  unfold State.setAccess
  split
  · simp only [State.region_madeCurrent]
    split
    · rfl
    · split
      · rfl
      · split
        · exact congrArg some (State.raise_madeCurrent (s.setRegion _ _) p _ rest cur .configEdit)
        · rfl
  · rfl

theorem State.bindView_madeCurrent (s : State) (p : Port) (rest : List Queued) (cur : Current) (r : Request) :
    (s.madeCurrent p rest cur).bindView r = (s.bindView r).map fun u => u.madeCurrent p rest cur := by
  unfold State.bindView
  split
  · simp only [State.region_madeCurrent, State.boot_madeCurrent, State.window_madeCurrent]
    split
    · rfl
    · split
      · rfl
      · split
        · rfl
        · rw [State.setWindow_madeCurrent, State.raise_madeCurrent]; rfl
  · rfl

theorem State.raiseConfigEdits_madeCurrent (s : State) (p : Port) (rest : List Queued) (cur : Current)
    (levels : Vector Level 4) (ps : List Port) :
    (s.madeCurrent p rest cur).raiseConfigEdits levels ps = (s.raiseConfigEdits levels ps).madeCurrent p rest cur := by
  induction ps generalizing s with
  | nil => rfl
  | cons q ps ih =>
    rw [State.raiseConfigEdits, State.raiseConfigEdits]
    split
    · exact ih s
    · rw [State.raise_madeCurrent]; exact ih _

theorem State.lockRegion_madeCurrent (s : State) (p : Port) (rest : List Queued) (cur : Current) (r : Request) :
    (s.madeCurrent p rest cur).lockRegion r = (s.lockRegion r).map fun u => u.madeCurrent p rest cur := by
  unfold State.lockRegion
  split
  · rfl
  · simp only [State.region_madeCurrent]
    split
    · rfl
    · rfl
    · exact congrArg some (State.raiseConfigEdits_madeCurrent (s.setRegion _ _) p rest cur _ allPorts)

theorem State.enableBoot_madeCurrent (s : State) (p t : Port) (rest : List Queued) (cur : Current) (b : StoredBoot) :
    (s.madeCurrent p rest cur).enableBoot t b = (s.enableBoot t b).madeCurrent p rest cur := by
  have hmod := fun u f hf => State.modPort_madeCurrent u p t rest cur f hf
  unfold State.enableBoot State.bindBoot
  simp only [State.pulse_madeCurrent]
  split
  · rw [hmod s _ fun _ => rfl, State.setWindow_madeCurrent, State.setWindow_madeCurrent, State.raise_madeCurrent,
      hmod _ _ fun _ => rfl]
  · rw [hmod s _ fun _ => rfl, State.setWindow_madeCurrent, State.setWindow_madeCurrent, State.raise_madeCurrent,
      hmod _ PortState.enterRunning fun _ => rfl]

theorem State.setBoot_madeCurrent (s : State) (p : Port) (rest : List Queued) (cur : Current) (r : Request) :
    (s.madeCurrent p rest cur).setBoot r = (s.setBoot r).map fun u => u.madeCurrent p rest cur := by
  unfold State.setBoot
  split
  · simp only [State.region_madeCurrent, State.boot_madeCurrent]
    split
    · split
      · rfl
      · exact congrArg some (s.enableBoot_madeCurrent p _ rest cur _)
    · exact congrArg some (s.modPort_madeCurrent p _ rest cur _ fun _ => rfl)
  · rfl

/-! ## The presentation of an allowed request (R48) -/

/-- R48: the oldest queued request of a port with no current one is presented. -/
theorem exec_presentation (p : Port) (s : State) (q : Queued) (rest : List Queued) (h : s.heads p q rest) :
    exec (.presentation p) s = .next (s.presentQueued p q rest).finish := by
  obtain ⟨hcurrent, hqueue⟩ := h
  have hpresentable : (s.port p).presentable = true := by simp [PortState.presentable, hcurrent, hqueue]
  simp only [exec, execPresentation, hpresentable, if_true, State.present, hcurrent, hqueue]

/-- R48: an unmarked request of a port that may submit it is examined by its kind. -/
theorem State.presentQueued_of_allowed (s : State) (p : Port) (q : Queued) (rest : List Queued)
    (he : q.expired = false) (ha : s.notAdmin p q.request = false) :
    s.presentQueued p q rest = (s.madeCurrent p rest q.toCurrent).examineKind p q.request := by
  simp only [State.presentQueued, he, ha, Bool.false_eq_true, if_false]
  rfl

/-- R48: the presentation of an unmarked request of a port that may submit it. -/
theorem exec_presentation_of_allowed (p : Port) (s : State) (q : Queued) (rest : List Queued) (r : Request)
    (h : s.heads p q rest) (he : q.expired = false) (hr : q.request = r) (ha : s.notAdmin p r = false) :
    exec (.presentation p) s = .next ((s.madeCurrent p rest q.toCurrent).examineKind p r).finish := by
  subst hr
  rw [exec_presentation p s q rest h, s.presentQueued_of_allowed p q rest he ha]

/-- R48, step 2: the administrator port may submit every kind. -/
theorem State.notAdmin_admin (s : State) (r : Request) : s.notAdmin s.admin r = false := by simp [State.notAdmin]

/-- R50: a request that completes as it is presented. -/
theorem State.completeBare_madeCurrent (s : State) (p : Port) (rest : List Queued) (cur : Current) (st : Status) :
    (s.madeCurrent p rest cur).completeBare p st = s.answered p rest cur.request st := by
  have hport : (s.madeCurrent p rest cur).port p = { s.port p with queue := rest, current := some cur } :=
    s.port_setPort_self p _
  rw [State.completeBare, State.complete_of_current _ p cur _ _ _ (by rw [hport]), hport]
  exact s.setPort_setPort p _ _

/-- R33, R49: an administrative request of the administrator port is made, DONE, or refused, CONFLICT, by what its edit
makes of the tables as they stand. -/
theorem exec_presentation_edit (p : Port) (s : State) (q : Queued) (rest : List Queued) (r : Request)
    (h : s.heads p q rest) (he : q.expired = false) (hr : q.request = r) (hp : p = s.admin)
    (edit : State → Option State) (hkind : ∀ u : State, u.examineKind p r = u.settleEdit p (edit u))
    (hedit : ∀ cur, edit (s.madeCurrent p rest cur) = (edit s).map fun u => u.madeCurrent p rest cur) :
    (edit s = none → exec (.presentation p) s = .next (s.answered p rest r .conflict).finish)
    ∧ ∀ u, edit s = some u → exec (.presentation p) s = .next (u.answered p rest r .done).finish := by
  have hrequest : q.toCurrent.request = r := hr
  rw [exec_presentation_of_allowed p s q rest r h he hr (hp ▸ s.notAdmin_admin r), hkind, hedit]
  refine ⟨fun hnone => ?_, fun u hu => ?_⟩
  · rw [hnone, Option.map_none, State.settleEdit, State.completeBare_madeCurrent, hrequest]
  · rw [hu, Option.map_some, State.settleEdit, State.completeBare_madeCurrent, hrequest]

/-- R48, steps 3 and 4: an array request or ARM_TRIAL completes with the status its checks give, or joins a bank. -/
theorem exec_presentation_admission (p : Port) (s : State) (q : Queued) (rest : List Queued) (r : Request)
    (h : s.heads p q rest) (he : q.expired = false) (hr : q.request = r) (ha : s.notAdmin p r = false)
    (hbank : r.kind.isBankKind = true) (a : Admission)
    (hkind : ∀ cur, (s.madeCurrent p rest cur).examineKind p r = (s.madeCurrent p rest cur).carryOut p a) :
    (∀ st, a = .refused st → exec (.presentation p) s = .next (s.answered p rest r st).finish)
    ∧ ∀ b entry range verify, a = .joins b entry range verify →
      exec (.presentation p) s
        = .next ((s.madeCurrent p rest ⟨r, q.timer, range, verify⟩).setBank b
            ((s.bank b).setCandidate p (some entry))).finish := by
  have hcurrent : q.toCurrent = ⟨r, q.timer, none, none⟩ := by simp only [Queued.toCurrent, hr, hbank, if_true]
  rw [exec_presentation_of_allowed p s q rest r h he hr ha, hkind, hcurrent]
  refine ⟨fun st hst => ?_, fun b entry range verify hjoins => ?_⟩
  · rw [hst, State.carryOut, State.completeBare_madeCurrent]
  · have hmade : ((s.madeCurrent p rest ⟨r, q.timer, none, none⟩).modPort p fun x =>
        { x with current := x.current.map fun c => { c with range := range, verify := verify } })
          = s.madeCurrent p rest ⟨r, q.timer, range, verify⟩ := by
      simp only [State.modPort, State.madeCurrent, State.port_setPort_self, State.setPort_setPort, Option.map_some]
    rw [hjoins, State.carryOut, hmade]
    rfl

end Sys2Proof.Machine
end

section
/-! PROOFS. The administrative edits at their presentation: DEFINE_REGION, CLEAR_REGION, SET_ACCESS, BIND_VIEW, LOCK_REGION
and SET_BOOT. -/

namespace Sys2Proof.Machine

open Sys2Proof

/-- An edit that is made under no condition met is refused. -/
theorem edit_eq_none {o : Option State} {made : State → Prop} (ho : ∀ t, o = some t ↔ made t) (h : ∀ t, ¬ made t) :
    o = none := Option.eq_none_iff_forall_ne_some.2 fun t ht => h t ((ho t).1 ht)

/-! ## DEFINE_REGION and CLEAR_REGION (R34, R35) -/

/-- Settles O31: the two edits by their conditions, and their presentation. -/
theorem defineAndClearRegion : Obligations.DefineAndClearRegion := by
  intro p s q rest r h he hr hp
  refine ⟨fun hkind => ?_, fun hkind => ?_⟩
  · obtain ⟨hconflict, hdone⟩ := exec_presentation_edit p s q rest r h he hr hp (·.defineRegion r)
      (fun u => by simp only [State.examineKind, hkind]) (fun cur => s.defineRegion_madeCurrent p rest cur r)
    refine ⟨fun hn => hconflict (edit_eq_none (s.defineRegion_eq_some · r) ?_), ?_⟩
    · rintro t ⟨n, hn', -⟩
      rw [(regionOfByte_eq_none (r.byte 0)).2 hn] at hn'
      cases hn'
    · intro n first count allowed hn hfirst hcount hallowed
      have hn := (regionOfByte_eq_some (r.byte 0) n).2 hn
      have hcond : allowed ↔ s.region n = .unused ∧ SectorRange.legal ⟨first, count⟩ = true
          ∧ ∀ m range, (s.region m).range? = some range → range.overlaps ⟨first, count⟩ = false := by
        simp only [hallowed, SectorRange.legal_iff, SectorRange.overlaps_eq_false, and_assoc]
      subst hfirst hcount
      refine ⟨fun ha => hdone _ ((s.defineRegion_eq_some _ r).2 ?_), fun ha => hconflict (edit_eq_none
        (s.defineRegion_eq_some · r) ?_)⟩
      · obtain ⟨hunused, hlegal, hfree⟩ := hcond.1 ha
        exact ⟨n, hn, hunused, hlegal, hfree, rfl⟩
      · rintro t ⟨n', hn', hunused, hlegal, hfree, -⟩
        obtain rfl : n = n' := Option.some.inj (hn.symm.trans hn')
        exact ha (hcond.2 ⟨hunused, hlegal, hfree⟩)
  · obtain ⟨hconflict, hdone⟩ := exec_presentation_edit p s q rest r h he hr hp (·.clearRegion r)
      (fun u => by simp only [State.examineKind, hkind]) (fun cur => s.clearRegion_madeCurrent p rest cur r)
    refine ⟨fun hn => hconflict (edit_eq_none (s.clearRegion_eq_some · r) ?_), ?_⟩
    · rintro t ⟨n, hn', -⟩
      rw [(regionOfByte_eq_none (r.byte 0)).2 hn] at hn'
      cases hn'
    · intro n allowed hn hallowed
      have hn := (regionOfByte_eq_some (r.byte 0) n).2 hn
      rw [← s.isBound_eq_false, ← s.isEnabledSlot_eq_false] at hallowed
      refine ⟨fun ha => hdone _ ((s.clearRegion_eq_some _ r).2 ?_), fun ha => hconflict (edit_eq_none
        (s.clearRegion_eq_some · r) ?_)⟩
      · obtain ⟨hopen, hbound, hslot⟩ := hallowed.1 ha
        exact ⟨n, hn, hopen, hbound, hslot, rfl⟩
      · rintro t ⟨n', hn', hopen, hbound, hslot, -⟩
        obtain rfl : n = n' := Option.some.inj (hn.symm.trans hn')
        exact ha (hallowed.2 ⟨hopen, hbound, hslot⟩)

/-! ## SET_ACCESS and BIND_VIEW (R36, R37) -/

/-- R36: a SET_ACCESS with a field out of range, of an UNUSED entry, or from one right to another is refused. -/
theorem State.setAccess_eq_none (s : State) (r : Request)
    (h : ∀ n p new, regionOfByte (r.byte 0) = some n → portOfByte (r.byte 1) = some p →
      levelOfByte (r.byte 2) = some new → ∀ locked range levels, s.region n = .inUse locked range levels →
        levels[p] ≠ new ∧ levels[p] ≠ .none ∧ new ≠ .none) : s.setAccess r = none := by
  refine edit_eq_none (s.setAccess_eq_some · r) ?_
  rintro t ⟨n, p, new, locked, range, levels, hn, hp, hl, hregion, hcase⟩
  obtain ⟨hne, hheld, hnew⟩ := h n p new hn hp hl locked range levels hregion
  rcases hcase with ⟨heq, -⟩ | ⟨-, hnone, -⟩
  · exact hne heq
  · exact hnone.elim hheld hnew

/-- R37: a BIND_VIEW with a field out of range, of a supervised port's first two windows, or to an UNUSED entry is
refused. -/
theorem State.bindView_eq_none (s : State) (r : Request)
    (h : ∀ p w target, portOfByte (r.byte 0) = some p → windowOfByte (r.byte 1) = some w →
      bindTargetOfByte (r.byte 2) = some target →
        (s.port p).boot.enabled = true ∧ w.val < 2 ∨ ∃ n, target = some n ∧ s.region n = .unused) :
    s.bindView r = none := by
  refine edit_eq_none (s.bindView_eq_some · r) ?_
  rintro t ⟨p, w, target, hp, hw, ht, hfree, hused, -⟩
  rcases h p w target hp hw ht with ⟨he, hlt⟩ | ⟨n, hn, hunused⟩
  · exact Nat.not_lt.2 (hfree he) hlt
  · exact hused n hn hunused

/-- R36: SET_ACCESS at its presentation. -/
theorem exec_presentation_setAccess (p : Port) (s : State) (q : Queued) (rest : List Queued) (r : Request)
    (h : s.heads p q rest) (he : q.expired = false) (hr : q.request = r) (hp : p = s.admin)
    (hkind : r.kind = .setAccess) :
    (s.setAccess r = none → exec (.presentation p) s = .next (s.answered p rest r .conflict).finish)
    ∧ ∀ u, s.setAccess r = some u → exec (.presentation p) s = .next (u.answered p rest r .done).finish :=
  exec_presentation_edit p s q rest r h he hr hp (·.setAccess r)
    (fun u => by simp only [State.examineKind, hkind]) (fun cur => s.setAccess_madeCurrent p rest cur r)

/-- R37: BIND_VIEW at its presentation. -/
theorem exec_presentation_bindView (p : Port) (s : State) (q : Queued) (rest : List Queued) (r : Request)
    (h : s.heads p q rest) (he : q.expired = false) (hr : q.request = r) (hp : p = s.admin)
    (hkind : r.kind = .bindView) :
    (s.bindView r = none → exec (.presentation p) s = .next (s.answered p rest r .conflict).finish)
    ∧ ∀ u, s.bindView r = some u → exec (.presentation p) s = .next (u.answered p rest r .done).finish :=
  exec_presentation_edit p s q rest r h he hr hp (·.bindView r)
    (fun u => by simp only [State.examineKind, hkind]) (fun cur => s.bindView_madeCurrent p rest cur r)

/-- Settles O32: the two edits by their conditions, and their presentation. -/
theorem setAccessAndBindView : Obligations.SetAccessAndBindView := by
  intro p s q rest r h he hr hp
  refine ⟨fun hkind => ?_, fun hkind => ?_⟩
  · obtain ⟨hconflict, hdone⟩ := exec_presentation_setAccess p s q rest r h he hr hp hkind
    refine ⟨fun hout => hconflict (s.setAccess_eq_none r fun n t new hn ht hl => ?_), ?_⟩
    · rw [regionOfByte_eq_some] at hn
      rw [portOfByte_eq_some] at ht
      have hlevel : (r.byte 2).toNat < 4 := by
        rw [levelOfByte_eq] at hl
        exact (List.getElem?_eq_some_iff.1 hl).1
      have hout : 16 ≤ (r.byte 0).toNat ∨ 4 ≤ (r.byte 1).toNat ∨ 4 ≤ (r.byte 2).toNat := hout
      omega
    · intro n t new hn ht hl
      have hn := (regionOfByte_eq_some (r.byte 0) n).2 hn
      have ht := (portOfByte_eq_some (r.byte 1) t).2 ht
      have hl := (levelOfByte_eq (r.byte 2)).trans hl
      have hnone := fun hcase => hconflict (s.setAccess_eq_none r fun n' t' new' hn' ht' hl' => by
        obtain rfl := Option.some.inj (hn.symm.trans hn')
        obtain rfl := Option.some.inj (ht.symm.trans ht')
        obtain rfl := Option.some.inj (hl.symm.trans hl')
        exact hcase)
      refine ⟨fun hunused => hnone fun locked range levels hregion => ?_, fun locked range levels hregion => ?_⟩
      · rw [hunused] at hregion
        cases hregion
      · have hmade := fun u hcase => hdone u ((s.setAccess_eq_some u r).2
          ⟨n, t, new, locked, range, levels, hn, ht, hl, hregion, hcase⟩)
        refine ⟨fun heq => hmade _ (.inl ⟨heq, rfl⟩), fun hne hedge => hmade _ (.inr ⟨hne, hedge, rfl⟩),
          fun hne hheld hnew => hnone fun locked' range' levels' hregion' => ?_⟩
        obtain ⟨-, -, rfl⟩ := RegionEntry.inUse.inj (hregion.symm.trans hregion')
        exact ⟨hne, hheld, hnew⟩
  · obtain ⟨hconflict, hdone⟩ := exec_presentation_bindView p s q rest r h he hr hp hkind
    refine ⟨fun hout => hconflict (s.bindView_eq_none r fun t w target ht hw htarget => ?_), ?_⟩
    · have ht := (portOfByte_eq_some _ _).1 ht
      have hw := (windowOfByte_eq_some _ _).1 hw
      rcases hout with hout | hout | hout
      · exact absurd (show 4 ≤ (r.byte 0).toNat from hout) (by omega)
      · exact absurd (show 4 ≤ (r.byte 1).toNat from hout) (by omega)
      · rw [(bindTargetOfByte_eq_none (r.byte 2)).2 hout] at htarget
        cases htarget
    · intro t w target ht hw htarget
      have ht := (portOfByte_eq_some (r.byte 0) t).2 ht
      have hw := (windowOfByte_eq_some (r.byte 1) w).2 hw
      have htarget := (bindTargetOfByte_eq_some (r.byte 2) target).2 htarget
      refine ⟨fun hcase => hconflict (s.bindView_eq_none r fun t' w' target' ht' hw' htarget' => ?_),
        fun hfree hused => ?_⟩
      · obtain rfl := Option.some.inj (ht.symm.trans ht')
        obtain rfl := Option.some.inj (hw.symm.trans hw')
        obtain rfl := Option.some.inj (htarget.symm.trans htarget')
        exact hcase
      · have hfree' : (s.port t).boot.enabled = true → 2 ≤ w.val := fun henabled =>
          hfree.resolve_left fun hf => Bool.false_ne_true (hf.symm.trans henabled)
        have hmade := fun u hcase => hdone u ((s.bindView_eq_some u r).2
          ⟨t, w, target, ht, hw, htarget, hfree', hused, hcase⟩)
        refine ⟨fun heq => hmade _ (.inl ⟨heq, rfl⟩), fun hne => ?_⟩
        have hbound := hmade _ (.inr ⟨hne, rfl⟩)
        rw [State.setWindow, State.raise, State.modPort_modPort] at hbound
        exact hbound

/-! ## LOCK_REGION (R38, R40) -/

/-- R40: CONFIG_EDITs raised change the ports alone. -/
theorem State.raiseConfigEdits_frame (s : State) (levels : Vector Level 4) (ps : List Port) :
    s.raiseConfigEdits levels ps = { s with ports := (s.raiseConfigEdits levels ps).ports } := by
  induction ps generalizing s with
  | nil => rfl
  | cons p rest ih =>
    rw [State.raiseConfigEdits]
    split
    · exact ih s
    · exact ih _

/-- R40: CONFIG_EDIT is raised at each listed port with a level other than NONE. -/
theorem State.port_raiseConfigEdits (s : State) (levels : Vector Level 4) (ps : List Port) (hps : ps.Nodup) (k : Port) :
    (s.raiseConfigEdits levels ps).port k
      = if k ∈ ps ∧ levels[k] ≠ .none then { s.port k with sticky := (s.port k).sticky ||| Event.configEdit.mask }
        else s.port k := by
  induction ps generalizing s with
  | nil => rw [if_neg fun h => List.not_mem_nil h.1]; rfl
  | cons p rest ih =>
    obtain ⟨hp, hrest⟩ := List.nodup_cons.1 hps
    rw [State.raiseConfigEdits, ih _ hrest]
    by_cases hk : k = p
    · subst hk
      rw [if_neg fun h => hp h.1]
      by_cases hlevel : levels[k] = .none
      · rw [if_pos hlevel, if_neg fun h => h.2 hlevel]
      · rw [if_neg hlevel, if_pos ⟨List.mem_cons_self, hlevel⟩, State.raise, State.port_modPort_self]
    · have hport : (if levels[p] = .none then s else s.raise p .configEdit).port k = s.port k := by
        split
        · rfl
        · rw [State.raise, State.port_modPort, if_neg hk]
      simp only [hport, List.mem_cons, hk, false_or]

/-- Settles O33: the edit by the entry's state, and its presentation. -/
theorem lockRegionLocks : Obligations.LockRegionLocks := by
  intro p s q rest r h he hr hp hkind
  obtain ⟨hconflict, hdone⟩ := exec_presentation_edit p s q rest r h he hr hp (·.lockRegion r)
    (fun u => by simp only [State.examineKind, hkind]) (fun cur => s.lockRegion_madeCurrent p rest cur r)
  refine ⟨fun hn => hconflict (edit_eq_none (s.lockRegion_eq_some · r) ?_), fun n hn => ?_⟩
  · rintro t ⟨n, _, _, _, hn', -⟩
    rw [(regionOfByte_eq_none (r.byte 0)).2 hn] at hn'
    cases hn'
  · have hn := (regionOfByte_eq_some (r.byte 0) n).2 hn
    refine ⟨fun hunused => hconflict (edit_eq_none (s.lockRegion_eq_some · r) ?_), fun range levels hregion => ?_,
      fun range levels hregion => ?_⟩
    · rintro t ⟨n', _, _, _, hn', hregion, -⟩
      obtain rfl := Option.some.inj (hn.symm.trans hn')
      rw [hunused] at hregion
      cases hregion
    · exact hdone _ ((s.lockRegion_eq_some _ r).2 ⟨n, true, range, levels, hn, hregion, .inl ⟨rfl, rfl⟩⟩)
    · refine ⟨_, hdone _ ((s.lockRegion_eq_some _ r).2 ⟨n, false, range, levels, hn, hregion, .inr ⟨rfl, rfl⟩⟩),
        State.raiseConfigEdits_frame _ levels allPorts, fun k => ?_⟩
      rw [State.port_raiseConfigEdits _ levels allPorts (by decide), State.port_setRegion]
      by_cases hlevel : levels[k] = .none
      · rw [if_neg fun h => h.2 hlevel, if_pos hlevel]
      · rw [if_pos ⟨mem_allPorts k, hlevel⟩, if_neg hlevel]
        rfl

/-! ## SET_BOOT (R41, R125, R126) -/

/-- R27: the active slot's region. -/
theorem StoredBoot.activeRegion_eq (b : StoredBoot) : b.activeRegion = if b.active = .a then b.slotA else b.slotB := by
  cases h : b.active <;> simp [StoredBoot.activeRegion, StoredBoot.slot, h]

/-- R27: the alternate slot's region. -/
theorem StoredBoot.alternateRegion_eq (b : StoredBoot) :
    b.alternateRegion = if b.active = .a then b.slotB else b.slotA := by
  cases h : b.active <;> simp [StoredBoot.alternateRegion, StoredBoot.slot, Slot.other, h]

/-- A timer that is not stopped runs. -/
theorem Timer.isRunning_eq_true (t : Timer) : t.isRunning = true ↔ t ≠ .stopped := by cases t <;> simp [Timer.isRunning]

/-- R41, R125: a port's state after its record is enabled, but for what a pulse decides. -/
def PortState.enabledBoot (x : PortState) (b : StoredBoot) : PortState :=
  { x with
    boot := b
    trial := none
    attempts := 0
    windows := (x.windows.set 0 (some b.activeRegion)).set 1 (some b.alternateRegion)
    sticky := x.sticky ||| Event.configEdit.mask }

/-- R125: an enabled record is HELD while a pulse is in progress and RUNNING otherwise. -/
theorem State.enableBoot_eq (s : State) (t : Port) (b : StoredBoot) :
    s.enableBoot t b
      = s.setPort t (if (s.port t).pulse = .stopped then ((s.port t).enabledBoot b).enterRunning
          else { (s.port t).enabledBoot b with bootState := .held }) := by
  unfold State.enableBoot State.bindBoot State.setWindow State.raise
  simp only [State.modPort_modPort, Timer.isRunning_eq_true, ne_eq, ite_not]
  split <;> rfl

/-- R125: the stored fields that a SET_BOOT payload gives, as numbers. -/
theorem Request.storedBoot_eq_some_iff (r : Request) (b : StoredBoot) :
    r.storedBoot = some b ↔
      (r.payload.getD 1 0).toNat = b.enabled.toNat ∧ (r.payload.getD 2 0).toNat = b.slotA.val
      ∧ (r.payload.getD 3 0).toNat = b.slotB.val
      ∧ [Slot.a, .b][(r.payload.getD 4 0).toNat]? = some b.active
      ∧ (r.payload.getD 5 0).toNat = b.attemptLimit ∧ 1 ≤ b.attemptLimit ∧ b.attemptLimit ≤ 7
      ∧ [250, 500, 1000, 2000, 4000, 8000, 16000, 32000][(r.payload.getD 6 0).toNat]? = some b.bootPeriod.ms
      ∧ [WatchdogPeriod.off, .ms100, .ms250, .ms500, .s1, .s2, .s4, .s8][(r.payload.getD 7 0).toNat]?
          = some b.watchdogPeriod := by
  rw [r.storedBoot_eq_some, boolOfByte_eq_some, regionOfByte_eq_some, regionOfByte_eq_some, slotOfByte_eq,
    limitOfByte_eq_some, bootPeriodOfByte_eq_some, watchdogPeriodOfByte_eq]
  simp only [Request.byte, and_assoc]

/-- Settles O34: the payload's fields as numbers, the edit by its conditions, and its presentation. -/
theorem setBootEnablesAndDisables : Obligations.SetBootEnablesAndDisables := by
  refine ⟨rfl, fun p s q rest r h he hr hp hkind => ?_⟩
  obtain ⟨hconflict, hdone⟩ := exec_presentation_edit p s q rest r h he hr hp (·.setBoot r)
    (fun u => by simp only [State.examineKind, hkind]) (fun cur => s.setBoot_madeCurrent p rest cur r)
  refine ⟨fun hout => hconflict (edit_eq_none (s.setBoot_eq_some · r) ?_), r.storedBoot_eq_some_iff, fun t b ht hb => ?_⟩
  · rintro _ ⟨t, b, ht, hb, -⟩
    rcases hout with hout | hout
    · rw [(portOfByte_eq_none (r.byte 0)).2 hout] at ht
      cases ht
    · rw [hout] at hb
      cases hb
  have ht := (portOfByte_eq_some (r.byte 0) t).2 ht
  have hmade := fun u hcase => hdone u ((s.setBoot_eq_some u r).2 ⟨t, b, ht, hb, hcase⟩)
  refine ⟨fun henabled => ⟨fun hrefused => hconflict (edit_eq_none (s.setBoot_eq_some · r) ?_),
    fun hdisabled hne ha hb x hx => ?_⟩, fun hdisabled => hmade _ (.inr ⟨hdisabled, rfl⟩)⟩
  · rintro _ ⟨t', b', ht', hb', ⟨-, ⟨hd, hne, hslotA, hslotB⟩, -⟩ | ⟨hd, -⟩⟩
    · obtain rfl := Option.some.inj (ht.symm.trans ht')
      obtain rfl := Option.some.inj (hb.symm.trans hb')
      rcases hrefused with hr | hr | hr | hr
      · exact Bool.false_ne_true (hd.symm.trans hr)
      · exact hne hr
      · exact hslotA hr
      · exact hslotB hr
    · obtain rfl := Option.some.inj (hb.symm.trans hb')
      exact Bool.false_ne_true (hd.symm.trans henabled)
  · have hx : x = (s.port t).enabledBoot b := by
      rw [hx, ← b.activeRegion_eq, ← b.alternateRegion_eq]; rfl
    have henable := hmade _ (.inl ⟨henabled, ⟨hdisabled, hne, ha, hb⟩, rfl⟩)
    rw [State.enableBoot_eq, ← hx] at henable
    refine ⟨fun hpulse => ?_, fun hpulse => ?_⟩
    · rw [if_pos hpulse] at henable
      rw [henable, hx]
      rfl
    · rw [if_neg hpulse] at henable
      exact henable

end Sys2Proof.Machine
end

section
/-! PROOFS. Array requests and ARM_TRIALs at their presentation: the first check that fails completes them, and one that
passes joins the candidate set of its bank. -/

namespace Sys2Proof.Machine

open Sys2Proof

/-! ## Admissions (R29, R32, R65, R97) -/

/-- R22: the bank of a range, by its first sector. -/
theorem SectorRange.bank_eq (range : SectorRange) : range.bank = if range.first < 1024 then 0 else 1 := rfl

/-- R29: the first check that fails refuses; where the first three pass, what is left decides. -/
def Access.admission (a : Access) (passed : RegionId → SectorRange → Nat → Admission) : Admission :=
  match a with
  | .failed st => .refused st
  | .ok n range offset => passed n range offset

/-- R48: what is left of an array request's checks once the first three pass: the protection test of a write, and the
entry that joins. -/
def State.admitPassed (s : State) (r : Request) (n : RegionId) (range : SectorRange) (offset : Nat) : Admission :=
  let a := range.base + offset
  match r.kind with
  | .read => .joins range.bank ⟨.read a r.count, none, false⟩ none none
  | .program =>
    if s.protectedSector (sectorOf a) then .refused .writeProtected
    else .joins range.bank ⟨.program (pageOf a) (pageOffset a) r.payload, none, false⟩ none none
  | .eraseSector =>
    if s.protectedSector (sectorOf a) then .refused .writeProtected
    else .joins range.bank ⟨.sectorErase (sectorOf a), none, false⟩ none none
  | .eraseRegion =>
    if s.protectedRegion n then .refused .writeProtected
    else .joins range.bank ⟨.sectorErase range.first, some 0, false⟩ (some range) none
  | _ => .joins range.bank (firstChunk range) none (some (freshVerify range none))

/-- R26, R29: the level and the demand on the offset of each array request. -/
def RequestKind.Needs (k : RequestKind) (count : Nat) (need : Level) (demand : Nat → Nat → Bool) : Prop :=
  k = .read ∧ need = .read ∧ demand = (fun o size => decide (o + count ≤ size))
  ∨ k = .program ∧ need = .write ∧ demand = (fun o size => decide (o < size))
  ∨ k = .eraseSector ∧ need = .full ∧ demand = (fun o size => decide (o < size))
  ∨ k = .eraseRegion ∧ need = .full ∧ demand = (fun _ _ => true)
  ∨ k = .verify ∧ need = .read ∧ demand = (fun _ _ => true)

/-- R48: an array request is examined by the first three checks at its need, and then by what is left of them. -/
theorem State.examineKind_array (s : State) (p : Port) (r : Request) (need : Level) (demand : Nat → Nat → Bool)
    (h : r.kind.Needs r.count need demand) :
    s.examineKind p r = s.carryOut p ((s.access p r.address need demand).admission (s.admitPassed r)) := by
  unfold State.examineKind
  rcases h with ⟨hk, rfl, rfl⟩ | ⟨hk, rfl, rfl⟩ | ⟨hk, rfl, rfl⟩ | ⟨hk, rfl, rfl⟩ | ⟨hk, rfl, rfl⟩ <;>
    unfold State.admitPassed <;> simp only [hk] <;> rfl

/-- R48, step 2: every port may submit an array request. -/
theorem State.notAdmin_array (s : State) (p : Port) (r : Request) (need : Level) (demand : Nat → Nat → Bool)
    (h : r.kind.Needs r.count need demand) : s.notAdmin p r = false := by
  rcases h with ⟨h, -⟩ | ⟨h, -⟩ | ⟨h, -⟩ | ⟨h, -⟩ | ⟨h, -⟩ <;> simp [State.notAdmin, h, RequestKind.adminOnly]

/-- R29, R48: an array request at its presentation: the first of the three checks that fails completes it, and what is
left of its checks decides where they pass. -/
theorem exec_presentation_array (p : Port) (s : State) (q : Queued) (rest : List Queued) (r : Request)
    (h : s.heads p q rest) (he : q.expired = false) (hr : q.request = r) (need : Level) (demand : Nat → Nat → Bool)
    (hneeds : r.kind.Needs r.count need demand) :
    (∀ st, s.access p r.address need demand = .failed st →
      exec (.presentation p) s = .next (s.answered p rest r st).finish)
    ∧ ∀ n range offset, s.access p r.address need demand = .ok n range offset →
      (∀ st, s.admitPassed r n range offset = .refused st →
        exec (.presentation p) s = .next (s.answered p rest r st).finish)
      ∧ ∀ b entry carried verify, s.admitPassed r n range offset = .joins b entry carried verify →
        exec (.presentation p) s
          = .next ((s.madeCurrent p rest ⟨r, q.timer, carried, verify⟩).setBank b
              ((s.bank b).setCandidate p (some entry))).finish := by
  have hbank : r.kind.isBankKind = true := by
    rcases hneeds with ⟨hk, -⟩ | ⟨hk, -⟩ | ⟨hk, -⟩ | ⟨hk, -⟩ | ⟨hk, -⟩ <;> rw [hk] <;> rfl
  have hpassed : ∀ cur, (s.madeCurrent p rest cur).admitPassed r = s.admitPassed r := fun cur => by
    funext n range offset
    simp only [State.admitPassed, State.protectedSector_madeCurrent, State.protectedRegion_madeCurrent]
  obtain ⟨hrefused, hjoins⟩ := exec_presentation_admission p s q rest r h he hr
    (s.notAdmin_array p r need demand hneeds) hbank _ fun cur => by
      rw [State.examineKind_array _ p r need demand hneeds, State.access_madeCurrent, hpassed]
  refine ⟨fun st hst => hrefused st (by rw [hst]; rfl), fun n range offset hok => ?_⟩
  rw [hok] at hrefused hjoins
  exact ⟨hrefused, hjoins⟩

/-- Settles O29: what is left of each kind's checks, refused or joining. -/
theorem presentationOfArrayRequests : Obligations.PresentationOfArrayRequests := by
  intro p s q rest r h he hr need demand hcase
  obtain ⟨hfailed, hpassed⟩ := exec_presentation_array p s q rest r h he hr need demand hcase
  refine ⟨hfailed, fun n range offset b hok hb => ?_⟩
  obtain ⟨hrefused, hjoins⟩ := hpassed n range offset hok
  rw [← SectorRange.bank_eq] at hb
  subst hb
  have hfree : ∀ {c : Bool} {x y : Admission}, c = false → (if c = true then x else y) = y := fun hc => by
    rw [hc]; rfl
  refine ⟨fun hk => hjoins _ _ _ _ ?_, fun hk hf => hjoins _ _ _ _ ?_, fun hk hf => hjoins _ _ _ _ ?_,
    fun hk hf => hjoins _ _ _ _ ?_, fun hk => hjoins _ _ _ _ ?_, fun hprotected => hrefused _ ?_⟩
  · simp only [State.admitPassed, hk]; rfl
  · simp only [State.admitPassed, hk]; exact hfree hf
  · simp only [State.admitPassed, hk]; exact hfree hf
  · simp only [State.admitPassed, hk]; exact hfree hf
  · simp only [State.admitPassed, hk]; rfl
  · rcases hprotected with ⟨hk | hk, hprotected⟩ | ⟨hk, hprotected⟩
    · simp only [State.admitPassed, hk]; exact if_pos hprotected
    · simp only [State.admitPassed, hk]; exact if_pos hprotected
    · simp only [State.admitPassed, hk]; exact if_pos hprotected

/-! ## ARM_TRIAL (R27, R97, R104) -/

/-- R104: whether a target is eligible, in the fields of its record. -/
theorem State.eligible_iff (s : State) (p t : Port) :
    s.eligible p t = true ↔ (s.port t).boot.enabled = true ∧ (s.port t).trial = none
      ∧ ((s.port t).bootState = .running ∨ (s.port t).bootState = .failed ∧ p = s.admin) := by
  simp [State.eligible, and_assoc]

/-- R168: a four-byte payload field, most significant byte first, as a number. -/
theorem Request.toNat_word (r : Request) (i : Nat) :
    (r.word i).toNat = (r.byte i).toNat * 0x1000000 + (r.byte (i + 1)).toNat * 0x10000
      + (r.byte (i + 2)).toNat * 0x100 + (r.byte (i + 3)).toNat := by
  have hlt := fun k => (r.byte k).isLt
  have h0 := hlt i
  have h1 := hlt (i + 1)
  have h2 := hlt (i + 2)
  have h3 := hlt (i + 3)
  simp only [Request.word, BitVec.toNat_append]
  rw [← Nat.shiftLeft_add_eq_or_of_lt h1, ← Nat.shiftLeft_add_eq_or_of_lt h2, ← Nat.shiftLeft_add_eq_or_of_lt h3]
  simp only [Nat.shiftLeft_eq]
  omega

/-- R104: the admission of an ARM_TRIAL does not see the current request. -/
theorem State.admitArm_madeCurrent (s : State) (p t : Port) (rest : List Queued) (cur : Current) (r : Request) :
    (s.madeCurrent p rest cur).admitArm t r = s.admitArm t r := by
  have heligible : ∀ k, (s.madeCurrent p rest cur).eligible t k = s.eligible t k := fun k => by
    simp only [State.eligible, State.boot_madeCurrent, State.trial_madeCurrent, State.bootState_madeCurrent]
    rfl
  simp only [State.admitArm, heligible, State.boot_madeCurrent, State.region_madeCurrent]

/-- Settles O30: the admission of an ARM_TRIAL by its target. -/
theorem presentationOfArmTrial : Obligations.PresentationOfArmTrial := by
  intro p s q rest r h he hr hk
  have hexec := fun ha => exec_presentation_admission p s q rest r h he hr ha (by rw [hk]; rfl) (s.admitArm p r)
    fun cur => by simp only [State.examineKind, hk, State.admitArm_madeCurrent]
  refine ⟨fun hp ht => ?_, fun t eligible ht hself heligible => ?_⟩
  · refine (hexec (hp ▸ s.notAdmin_admin r)).1 _ ?_
    rw [State.admitArm, (portOfByte_eq_none (r.byte 0)).2 ht]
  · have ht := (portOfByte_eq_some (r.byte 0) t).2 ht
    have hallowed : s.notAdmin p r = false := by
      rcases hself with rfl | rfl
      · exact s.notAdmin_admin r
      · simp [State.notAdmin, hk, RequestKind.adminOnly, ht]
    obtain ⟨hrefused, hjoins⟩ := hexec hallowed
    rw [← s.eligible_iff] at heligible
    refine ⟨fun hnot => hrefused _ ?_, fun slot region range digest b hyes hslot hrange hdigest hb => hjoins _ _ _ _ ?_⟩
    · simp only [State.admitArm, ht]
      exact if_neg fun h => hnot (heligible.2 h)
    · have hother : slot = (s.port t).boot.active.other ∧ region = (s.port t).boot.alternateRegion := by
        rw [StoredBoot.alternateRegion_eq]
        rcases hslot with ⟨rfl, hactive, rfl⟩ | ⟨rfl, hactive, rfl⟩ <;> rw [hactive] <;> exact ⟨rfl, rfl⟩
      obtain ⟨rfl, rfl⟩ := hother
      have hword : digest = r.word 1 := BitVec.eq_of_toNat_eq (hdigest.trans (r.toNat_word 1).symm)
      rw [← SectorRange.bank_eq] at hb
      subst hb hword
      simp only [State.admitArm, ht, heligible.1 hyes, if_true, hrange]
      rfl

end Sys2Proof.Machine
end

section
/-! PROOFS. Translation, the first three checks and protection; the grant of a write; the release of a pulse. -/

namespace Sys2Proof.Machine

open Sys2Proof

/-! ## Translation and checks (R25, R26, R28, R29) -/

/-- R25: the window of an address, by its value. -/
theorem windowOf_eq (a : LogicalAddress) (w : Fin 4) (h : w.val = a.toNat / 0x400000) : windowOf a = w :=
  Fin.ext h.symm

/-- R29: an address in an unbound window fails the first check. -/
theorem State.access_of_unbound (s : State) (p : Port) (a : LogicalAddress) (need : Level) (demand : Nat → Nat → Bool)
    (h : (s.port p).window (windowOf a) = none) : s.access p a need demand = .failed .range := by
  simp only [State.access, h]

/-- R29: in a window bound to a region in use, the level is checked first and the offset after it. -/
theorem State.access_of_bound (s : State) (p : Port) (a : LogicalAddress) (need : Level) (demand : Nat → Nat → Bool)
    (r : RegionId) (locked : Bool) (range : SectorRange) (levels : Vector Level 4)
    (hw : (s.port p).window (windowOf a) = some r) (hr : s.region r = .inUse locked range levels) :
    s.access p a need demand
      = if levels[p].permits need = false then .failed .denied
        else if demand (a.toNat % 0x400000) range.size = false then .failed .range
        else .ok r range (a.toNat % 0x400000) := by
  simp only [State.access, hw, hr, Bool.not_eq_true']
  rfl

/-- Settles O9: the checks one after another, and the ladder level by level. -/
theorem translationAndChecksInOrder : Obligations.TranslationAndChecksInOrder := by
  refine ⟨fun s p a need demand w hw => ?_, fun l => ?_⟩
  · obtain rfl := windowOf_eq a w hw
    refine ⟨s.access_of_unbound p a need demand, fun r locked range levels hbound hregion => ?_⟩
    rw [s.access_of_bound p a need demand r locked range levels hbound hregion]
    refine ⟨fun hdenied => if_pos hdenied, fun hpermits hout => ?_, fun hpermits hin => ?_⟩
    · rw [if_neg (Bool.not_eq_false _ ▸ hpermits), if_pos hout]
    · rw [if_neg (Bool.not_eq_false _ ▸ hpermits), if_neg (Bool.not_eq_false _ ▸ hin)]
  · cases l <;> decide

/-! ## Protection (R31) -/

/-- R31: when an in-use region is protected. -/
theorem State.protectedRegion_iff (s : State) (n : RegionId) :
    s.protectedRegion n = true ↔ ∃ locked range levels, s.region n = .inUse locked range levels
      ∧ (locked = true
        ∨ (∃ p : Port, (s.port p).boot.enabled = true ∧ (s.port p).boot.activeRegion = n)
        ∨ ∃ (p : Port) (t : Slot), (s.port p).trial = some t ∧ (s.port p).boot.slot t = n) := by
  have hports : (allPorts.any fun q =>
      let x := s.port q
      (x.boot.enabled && x.boot.activeRegion == n) || x.trial.any fun t => x.boot.slot t == n) = true
      ↔ (∃ p : Port, (s.port p).boot.enabled = true ∧ (s.port p).boot.activeRegion = n)
        ∨ ∃ (p : Port) (t : Slot), (s.port p).trial = some t ∧ (s.port p).boot.slot t = n := by
    simp only [List.any_eq_true, mem_allPorts, true_and, Bool.or_eq_true, Bool.and_eq_true, beq_iff_eq,
      Option.any_eq_true, exists_or]
  unfold State.protectedRegion
  split
  · next h => simp [h]
  · next locked range levels h =>
    rw [Bool.or_eq_true, hports]
    refine ⟨fun hcase => ⟨locked, range, levels, h, hcase⟩, fun ⟨locked', range', levels', h', hcase⟩ => ?_⟩
    obtain ⟨rfl, -, -⟩ := RegionEntry.inUse.inj (h.symm.trans h')
    exact hcase

/-- Settles O10: a protected sector lies in a region that is protected. -/
theorem protectionOfASector : Obligations.ProtectionOfASector := by
  intro s sector
  have hsector : s.protectedSector sector = true
      ↔ ∃ n range, (s.region n).range? = some range ∧ range.contains sector = true ∧ s.protectedRegion n = true := by
    simp only [State.protectedSector, List.any_eq_true, mem_allRegions, true_and, Bool.and_eq_true]
    refine exists_congr fun n => ?_
    cases (s.region n).range? <;> simp
  have hcontains : ∀ range : SectorRange, range.contains sector = true
      ↔ range.first ≤ sector ∧ sector < range.first + range.count := fun range => by
    simp [SectorRange.contains]
  rw [hsector]
  constructor
  · rintro ⟨n, range, hrange, hin, hprotected⟩
    obtain ⟨locked, range', levels, hregion, hcase⟩ := (s.protectedRegion_iff n).1 hprotected
    obtain rfl : range' = range := by rw [hregion] at hrange; exact Option.some.inj hrange
    obtain ⟨hlow, hhigh⟩ := (hcontains range').1 hin
    exact ⟨n, locked, range', levels, hregion, hlow, hhigh, hcase⟩
  · rintro ⟨n, locked, range, levels, hregion, hlow, hhigh, hcase⟩
    exact ⟨n, range, by rw [hregion]; rfl, (hcontains range).2 ⟨hlow, hhigh⟩,
      (s.protectedRegion_iff n).2 ⟨locked, range, levels, hregion, hcase⟩⟩

/-! ## The grant of a write (R69, R71) -/

/-- R69, R71: what every grant does where its port has a current request. -/
theorem State.takeGrant_eq (s : State) (b : BankId) (p : Port) (cur : Current) (h : (s.port p).current = some cur) :
    s.takeGrant b p
      = (s.setPort p { s.port p with current := some { cur with timer := .stopped } }).setBank b
          { (s.bank b).setCandidate p none with pointer := p + 1 } := by
  simp only [State.takeGrant, State.stopDeadline, State.modPort, State.modBank, State.port_setBank, h, Option.map_some]
  rfl

/-- Settles O40: the grant of a write candidate, by the protection of its sector as the part stands. -/
theorem writeGrantTestsProtection : Obligations.WriteGrantTestsProtection := by
  intro b s p c cur k target sector hgrant hcur hk htarget
  have hsector : target.sector = sector := by
    rcases htarget with ⟨page, start, data, -, rfl, rfl⟩ | ⟨-, rfl⟩ <;> rfl
  have hwrite : c.target.isRead = false ∧ s.grant b p c = (s.takeGrant b p).grantWrite b p target c.chunk := by
    rcases htarget with ⟨page, start, data, hc, rfl, rfl⟩ | ⟨hc, rfl⟩
    · simp only [State.grant, hc, CandidateTarget.isRead, and_self]
    · simp only [State.grant, hc, CandidateTarget.isRead, and_self]
  have hexec : exec (.writeGrant b) s = .next ((s.takeGrant b p).grantWrite b p target c.chunk).finish := by
    simp only [exec, execWriteGrant, hgrant, hwrite, Bool.false_eq_true, if_false]
  have hport : ∀ q, (s.takeGrant b p).port q
      = if q = p then { s.port p with current := some { cur with timer := .stopped } } else s.port q := fun q => by
    rw [s.takeGrant_eq b p cur hcur, State.port_setBank, State.port_setPort]
  have hprotected : (s.takeGrant b p).protectedSector sector = s.protectedSector sector := by
    refine State.protectedSector_congr sector (fun _ => rfl) (fun q => ?_) (fun q => ?_)
    · rw [hport]; split
      · next e => rw [e]
      · rfl
    · rw [hport]; split
      · next e => rw [e]
      · rfl
  rw [hexec, State.grantWrite, hsector, hprotected]
  subst hk
  refine ⟨fun hp => ?_, fun hp => ?_⟩
  · rw [if_pos hp, State.completeBare, State.complete_of_current _ p { cur with timer := .stopped } _ _ _ (by
      rw [hport, if_pos rfl]), hport, if_pos rfl, s.takeGrant_eq b p cur hcur]
    exact congrArg (fun u : State => Host.Outcome.next u.finish) (State.setPort_setPort (s.setBank b _) p _ _)
  · rw [if_neg (Bool.not_eq_true _ ▸ hp), s.takeGrant_eq b p cur hcur, State.modBank, State.bank_setBank_self,
      State.setBank_setBank]

/-! ## The release of a pulse (R112) -/

/-- R112: the release of a port that is not supervised. -/
theorem State.pulseRelease_of_disabled (s : State) (p : Port) (h : (s.port p).boot.enabled = false) :
    s.pulseRelease p = s.setPort p { s.port p with pulse := .stopped } := by
  simp only [State.pulseRelease, h, Bool.false_eq_true, if_false, State.modPort]

/-- R41, R112: the release of a supervised port boots a slot behind W0 with another behind W1: the armed trial and the
active slot, or the active slot and the alternate one. -/
theorem State.pulseRelease_of_enabled (s : State) (p : Port) (h : (s.port p).boot.enabled = true) (w0 w1 : RegionId)
    (st : BootState)
    (hw : (∃ t, (s.port p).trial = some t ∧ w0 = (s.port p).boot.slot t ∧ w1 = (s.port p).boot.activeRegion ∧ st = .trial)
      ∨ (s.port p).trial = none ∧ w0 = (s.port p).boot.activeRegion ∧ w1 = (s.port p).boot.alternateRegion
        ∧ st = .unconfirmed) :
    s.pulseRelease p
      = s.setPort p { s.port p with
          pulse := .stopped
          windows := ((s.port p).windows.set 0 (some w0)).set 1 (some w1)
          bootState := st
          bootTimer := .running (s.port p).boot.bootPeriod.ms } := by
  unfold State.pulseRelease State.bindBoot State.setWindow
  simp only [State.modPort_modPort]
  rw [if_pos h]
  split
  · next t ht =>
    rcases hw with ⟨t', ht', rfl, rfl, rfl⟩ | ⟨hnone, -⟩
    · obtain rfl := Option.some.inj (ht.symm.trans ht')
      rfl
    · cases ht.symm.trans hnone
  · next hnone =>
    rcases hw with ⟨t', ht', -⟩ | ⟨-, rfl, rfl, rfl⟩
    · cases hnone.symm.trans ht'
    · rfl

/-- Settles O48: the three cases of a release. -/
theorem pulseReleaseBootsTheRecord : Obligations.PulseReleaseBootsTheRecord := by
  intro p s x hx hpulse
  subst hx
  have hexec : exec (.pulseRelease p) s = .next (s.pulseRelease p).finish :=
    if_pos ((Timer.isRunning_eq_true _).2 hpulse)
  rw [hexec]
  refine ⟨fun hd => ?_, fun t he ht => ?_, fun he ht => ?_⟩
  · rw [s.pulseRelease_of_disabled p hd]
  · rw [s.pulseRelease_of_enabled p he _ _ _ (.inl ⟨t, ht, rfl, rfl, rfl⟩)]
    rfl
  · rw [s.pulseRelease_of_enabled p he _ _ _ (.inr ⟨ht, rfl, rfl, rfl⟩)]
    rfl

end Sys2Proof.Machine
end

section
/-! PROOFS. The frames of the requests and of the status reads: the record that a SUBMIT carries, the checks in their order,
and the answer each frame decides. -/

namespace Sys2Proof.Machine

open Sys2Proof

/-! ## The forms of a frame's fields -/

/-- R172: a byte names the kind whose code it is. -/
theorem RequestKind.ofCode_eq_some (b : Byte) (k : RequestKind) : RequestKind.ofCode b = some k ↔ k.code = b := by
  constructor
  · intro h
    simpa using List.find?_some h
  · rintro rfl
    cases k <;> rfl

/-- Table 11-3: a payload length that a kind and count call for. -/
theorem RequestKind.payloadLength_eq_some (k : RequestKind) (count n : Nat) :
    k.payloadLength count = some n ↔
      n = (match k with
        | .read | .eraseSector | .eraseRegion | .verify | .storeConfig => 0
        | .program => count
        | .armTrial | .defineRegion => 5
        | .clearRegion | .lockRegion | .resetMaster | .flushPort => 1
        | .setAccess | .bindView | .setPort => 3
        | .setBoot => 8)
      ∧ (k = .read ∨ k = .program → 1 ≤ count) := by
  cases k <;> simp [RequestKind.payloadLength, Nat.one_le_iff_ne_zero, eq_comm, and_comm]

/-- R42, R169: the record that a frame carries. -/
theorem submitRecord_eq_some (f : SubmitFrame) (r : Request) :
    submitRecord f = some r ↔ r.kind.code = f.kind ∧ f.count.toNat ≤ 256
      ∧ r.kind.payloadLength f.count.toNat = some f.payloadLength.toNat
      ∧ r = ⟨r.kind, f.tag, f.address, f.count.toNat, f.payload⟩ := by
  unfold submitRecord
  constructor
  · intro h
    split at h
    · cases h
    · next k hk =>
      split at h
      · next hfit =>
        cases h
        exact ⟨(RequestKind.ofCode_eq_some _ _).1 hk, hfit.1, hfit.2, rfl⟩
      · cases h
  · rintro ⟨hcode, hcount, hlength, hr⟩
    rw [(RequestKind.ofCode_eq_some _ _).2 hcode]
    exact (if_pos ⟨hcount, hlength⟩).trans (congrArg some hr.symm)

/-- Settles O13: a byte names at most one kind, and the length test of each kind is its row of Table 11-3. -/
theorem wellFormedRequestRecords : Obligations.WellFormedRequestRecords := by
  refine ⟨rfl, fun f r => ?_⟩
  rw [submitRecord_eq_some, RequestKind.payloadLength_eq_some]
  obtain ⟨kind, tag, address, count, payload⟩ := r
  simp only [Request.mk.injEq, true_and]
  constructor
  · rintro ⟨hcode, hcount, ⟨hlength, hone⟩, hfields⟩
    obtain ⟨rfl, rfl, rfl, rfl⟩ := hfields
    exact ⟨hcode, rfl, rfl, rfl, rfl, hcount, hlength, hone⟩
  · rintro ⟨hcode, htag, haddress, hcountEq, hpayload, hcount, hlength, hone⟩
    exact ⟨hcode, hcount, ⟨hlength, hone⟩, htag, haddress, hcountEq, hpayload⟩

/-- The byte that begins m bits up in a field. -/
theorem setWidth_ushiftRight_eq_ofNat {w : Nat} (v : BitVec w) (m : Nat) :
    (v >>> m).setWidth 8 = BitVec.ofNat 8 (v.toNat / 2 ^ m) := by
  apply BitVec.eq_of_toNat_eq
  rw [BitVec.toNat_setWidth, BitVec.toNat_ushiftRight, BitVec.toNat_ofNat, Nat.shiftRight_eq_div_pow]

theorem setWidth_eq_ofNat {w : Nat} (v : BitVec w) : v.setWidth 8 = BitVec.ofNat 8 v.toNat := by
  apply BitVec.eq_of_toNat_eq
  rw [BitVec.toNat_setWidth, BitVec.toNat_ofNat]

/-- R168: a two-byte field, as numbers. -/
theorem halfBytes_eq (h : Half) : halfBytes h = [BitVec.ofNat 8 (h.toNat / 256), BitVec.ofNat 8 h.toNat] := by
  rw [halfBytes, setWidth_ushiftRight_eq_ofNat, setWidth_eq_ofNat]
  rfl

/-- R168: an address, as numbers. -/
theorem addressBytes_eq (a : LogicalAddress) :
    addressBytes a = [BitVec.ofNat 8 (a.toNat / 65536), BitVec.ofNat 8 (a.toNat / 256), BitVec.ofNat 8 a.toNat] := by
  rw [addressBytes, setWidth_ushiftRight_eq_ofNat, setWidth_ushiftRight_eq_ofNat, setWidth_eq_ofNat]
  rfl

/-! ## The four checks of a SUBMIT -/

/-- R149, R58: a frame that passes its check. -/
theorem PortState.checkPasses_iff (x : PortState) (bytes : List Byte) (check : Byte) :
    x.checkPasses bytes check = true ↔ x.settings.checkRequired = false ∨ check = crc8 bytes := by
  simp [PortState.checkPasses]

/-- R149, R58: a frame that fails its check. -/
theorem PortState.checkPasses_eq_false (x : PortState) (bytes : List Byte) (check : Byte) :
    x.checkPasses bytes check = false ↔ x.settings.checkRequired = true ∧ check ≠ crc8 bytes := by
  simp [PortState.checkPasses]

/-- R43: the write kinds. -/
theorem RequestKind.isWrite_iff (k : RequestKind) :
    k.isWrite = true ↔ k = .program ∨ k = .eraseSector ∨ k = .eraseRegion := by
  cases k <;> simp [RequestKind.isWrite]

/-- R46: the credits in use, with the current request counted as a condition. -/
theorem PortState.creditsInUse_eq (x : PortState) :
    x.creditsInUse = x.queue.length + (if x.current = none then 0 else 1) + x.completions.length := by
  unfold PortState.creditsInUse
  cases x.current <;> rfl

/-- R44: a payload length that cannot delimit a frame. -/
theorem submitOutcome_of_long (x : PortState) (f : SubmitFrame) (h : 256 < f.payloadLength.toNat) :
    submitOutcome x f = (.badFrame, .nothing) := if_pos h

/-- R44: a record that is not well formed. -/
theorem submitOutcome_of_no_record (x : PortState) (f : SubmitFrame) (h : submitRecord f = none) :
    submitOutcome x f = (.badFrame, .nothing) := by
  simp [submitOutcome, h]

/-- R44: a frame that carries a record and fails its check. -/
theorem submitOutcome_of_bad_check (x : PortState) (f : SubmitFrame) (r : Request) (hl : f.payloadLength.toNat ≤ 256)
    (hr : submitRecord f = some r) (hcheck : x.settings.checkRequired = true ∧ f.check ≠ crc8 (submitBytes f)) :
    submitOutcome x f = (.badCheck, .nothing) := by
  simp only [submitOutcome, Nat.not_lt.2 hl, if_false, hr, (x.checkPasses_eq_false _ _).2 hcheck, Bool.not_false, if_true]

/-- R44: the checks of a frame that carries a record and passes its check. -/
theorem submitOutcome_of_checked (x : PortState) (f : SubmitFrame) (r : Request) (hl : f.payloadLength.toNat ≤ 256)
    (hr : submitRecord f = some r) (hcheck : x.settings.checkRequired = false ∨ f.check = crc8 (submitBytes f)) :
    submitOutcome x f
      = if r.kind.isWrite && !x.latch then (.noLatch, .nothing)
        else if x.creditsInUse < Config.credits then (.accepted, .accept r)
        else (.full, .nothing) := by
  simp only [submitOutcome, Nat.not_lt.2 hl, if_false, hr, (x.checkPasses_iff _ _).2 hcheck, Bool.not_true,
    Bool.false_eq_true]

/-- R44: the check of the credits, which a frame of a write kind reaches with the latch set. -/
theorem submitOutcome_of_open (x : PortState) (f : SubmitFrame) (r : Request) (hl : f.payloadLength.toNat ≤ 256)
    (hr : submitRecord f = some r) (hcheck : x.settings.checkRequired = false ∨ f.check = crc8 (submitBytes f))
    (hopen : (r.kind ≠ .program ∧ r.kind ≠ .eraseSector ∧ r.kind ≠ .eraseRegion) ∨ x.latch = true) :
    submitOutcome x f
      = if x.queue.length + (if x.current = none then 0 else 1) + x.completions.length < 8 then (.accepted, .accept r)
        else (.full, .nothing) := by
  have hlatch : ¬ (r.kind.isWrite && !x.latch) = true := by
    simp only [Bool.and_eq_true, RequestKind.isWrite_iff, Bool.not_eq_true']
    rintro ⟨hwrite, hlatch⟩
    rcases hopen with ⟨hprogram, hsector, hregion⟩ | hset
    · rcases hwrite with h | h | h
      · exact hprogram h
      · exact hsector h
      · exact hregion h
    · exact absurd hset (by simp [hlatch])
  rw [submitOutcome_of_checked x f r hl hr hcheck, if_neg hlatch, PortState.creditsInUse_eq]
  rfl

/-- R147: a delimited SUBMIT frame taken whole. -/
theorem State.exec_submit_of_inFrame (s : State) (p : Port) (f : SubmitFrame) (n : Nat) (hf : f.delimited = true)
    (h : s.inFrame p (submitFrame f)) {ack : Ack} {e : Effect} (ho : submitOutcome (s.port p) f = (ack, e)) :
    exec (.submit p f n) s = .next (s.framed p (submitFrame f) [ack.code] e n) := by
  change execSubmit p f n s = _
  rw [execSubmit, if_pos hf, s.endFrame_of_inFrame p _ h _ n (submitDecision_effect_ne_stream _ f)]
  simp only [submitDecision, ho]

/-- Settles O14: each check of `submitOutcome` in its order. -/
theorem submitIsAcknowledgedByFourChecks : Obligations.SubmitIsAcknowledgedByFourChecks := by
  refine ⟨fun f => ⟨?_, ?_⟩, fun p f n s hf h => ⟨fun hl => ?_, fun _ hr => ?_, fun r hl hr => ⟨fun hcheck => ?_,
    fun hcheck => ⟨fun hlatch => ?_, fun hlatch => ⟨fun hfull => ?_, fun hroom => ?_⟩⟩⟩⟩, fun p f n s hf => ?_⟩
  · rw [submitBytes, addressBytes_eq, halfBytes_eq, halfBytes_eq]
    rfl
  · unfold submitFrame
    split
    · rfl
    · exact (List.append_nil _).symm
  · exact s.exec_submit_of_inFrame p f n hf h (submitOutcome_of_long _ f hl)
  · exact s.exec_submit_of_inFrame p f n hf h (submitOutcome_of_no_record _ f hr)
  · exact s.exec_submit_of_inFrame p f n hf h (submitOutcome_of_bad_check _ f r hl hr hcheck)
  · have houtcome : submitOutcome (s.port p) f = (.noLatch, .nothing) := by
      rw [submitOutcome_of_checked _ f r hl hr hcheck, (RequestKind.isWrite_iff _).2 hlatch.1, hlatch.2]
      rfl
    exact s.exec_submit_of_inFrame p f n hf h houtcome
  · exact s.exec_submit_of_inFrame p f n hf h
      ((submitOutcome_of_open _ f r hl hr hcheck hlatch).trans (if_neg (Nat.not_lt.2 hfull)))
  · exact s.exec_submit_of_inFrame p f n hf h
      ((submitOutcome_of_open _ f r hl hr hcheck hlatch).trans (if_pos hroom))
  · change execSubmit p f n s = _
    rw [execSubmit, hf]
    rfl

/-! ## The answers of FETCH and of the status reads -/

/-- A byte for a decided fact. -/
theorem boolByte_eq_ite (b : Bool) : boolByte b = if b = true then 1 else 0 := by cases b <;> rfl

/-- A byte for an optional value. -/
theorem boolByte_isSome {α : Type} [DecidableEq α] (o : Option α) : boolByte o.isSome = if o = none then 0 else 1 := by
  cases o <;> rfl

/-- R121: the byte of the code expected. -/
theorem ServiceCode.byte_eq_ite (c : ServiceCode) : c.byte = if c = .x96 then 0x96 else 0x69 := by cases c <;> rfl

/-- R171: the bytes of a snapshot, as the table has them. -/
theorem snapshotBytes_eq (s : State) (p : Port) :
    s.snapshotBytes p
      = [BitVec.ofNat 8 p.val, if p = s.admin then 1 else 0, BitVec.ofNat 8 (s.port p).queue.length,
          if (s.port p).current = none then 0 else 1, BitVec.ofNat 8 (s.port p).completions.length,
          BitVec.ofNat 8 (s.port p).creditsFree, if (s.port p).latch = true then 1 else 0, (s.port p).bootState.code,
          (s.port p).boot.active.code, trialCode (s.port p).trial, BitVec.ofNat 8 (s.port p).attempts,
          BitVec.ofNat 8 (s.port p).boot.attemptLimit, (s.port p).expected.byte, (s.port p).eventStatus,
          (s.port p).enables, (s.port p).causes, if s.writer.snapshot = none then 0 else 1] := by
  simp only [State.snapshotBytes, boolByte_isSome]
  simp only [boolByte_eq_ite, beq_iff_eq]

/-- R157: the administrator's own answer about a port. -/
theorem peerStatusDecision_of_admin (s : State) (target : Byte) (t : Port) (h : target.toNat = t.val) :
    peerStatusDecision s s.admin target = ⟨Ack.done.code :: s.snapshotBytes t, .nothing⟩ := by
  simp [peerStatusDecision, (portOfByte_eq_some target t).2 h]

/-- R157: what the administrator alone may ask, and of ports alone. -/
theorem peerStatusDecision_of_refused (s : State) (p : Port) (target : Byte) (h : p ≠ s.admin ∨ 4 ≤ target.toNat) :
    peerStatusDecision s p target = ⟨[Ack.refused.code], .nothing⟩ := by
  unfold peerStatusDecision
  split
  · next t ht =>
    refine if_neg (h.resolve_right ?_)
    rw [(portOfByte_eq_some target t).1 ht]
    exact Nat.not_le.2 t.isLt
  · rfl

/-- Settles O15: one decision for each of the three kinds, at the end of a frame taken whole. -/
theorem fetchAndStatusAnswers : Obligations.FetchAndStatusAnswers := by
  refine ⟨fun p n s => ⟨fun h => ?_, fun h => ?_, fun target h => ?_⟩, rfl, rfl, fun p s => ?_⟩
  · have hexec : exec (.fetch p n) s
        = .next (s.framed p [0x53] (fetchDecision (s.port p)).answer (fetchDecision (s.port p)).effect n) :=
      congrArg _ (s.endFrame_of_inFrame p [0x53] h _ n (fetchDecision_effect_ne_stream _))
    refine ⟨fun hc => ?_, fun c rest hc => ?_⟩
    · rw [hexec, fetchDecision, hc]
      rfl
    · rw [hexec, fetchDecision, hc]
      simp only [Completion.bytes, List.length_cons, Nat.add_comm _ 5]
  · exact congrArg _ (s.endFrame_of_inFrame p [0x54] h (statusDecision s p) n nofun)
  · have hexec : exec (.readPeerStatus p target n) s = .next (s.framed p [0x55, target]
        (peerStatusDecision s p target).answer (peerStatusDecision s p target).effect n) :=
      congrArg _ (s.endFrame_of_inFrame p [0x55, target] h _ n (peerStatusDecision_effect_ne_stream _ _ _))
    refine ⟨fun t hp ht => ?_, fun hout => ?_⟩
    · subst hp
      rw [hexec, peerStatusDecision_of_admin s target t ht]
      rfl
    · rw [hexec, peerStatusDecision_of_refused s p target hout]
      rfl
  · rw [snapshotBytes_eq, PortState.creditsFree, PortState.creditsInUse_eq, ServiceCode.byte_eq_ite]
    cases (s.port p).trial with
    | none => rfl
    | some slot => cases slot <;> rfl

/-! ## The checked immediate requests -/

/-- R149: a checked request that fails its check. -/
theorem checkedDecision_of_bad_check (x : PortState) (bytes : List Byte) (check : Byte) (allowed : Bool) (e : Effect)
    (h : x.settings.checkRequired = true ∧ check ≠ crc8 bytes) :
    checkedDecision x bytes check allowed e = ⟨[Ack.badCheck.code], .nothing⟩ := by
  simp [checkedDecision, (x.checkPasses_eq_false _ _).2 h]

/-- R150: a checked request that passes its check. -/
theorem checkedDecision_of_check (x : PortState) (bytes : List Byte) (check : Byte) (allowed : Bool) (e : Effect)
    (h : x.settings.checkRequired = false ∨ check = crc8 bytes) :
    checkedDecision x bytes check allowed e
      = if allowed = true then ⟨[Ack.done.code], e⟩ else ⟨[Ack.refused.code], .nothing⟩ := by
  cases allowed <;> simp [checkedDecision, (x.checkPasses_iff _ _).2 h]

/-- R149, R150: a checked request taken whole, by its check and by whether it is allowed. -/
theorem State.exec_checked_of_inFrame (s : State) (p : Port) (c : Instr) (bytes : List Byte) (check : Byte) (allowed : Bool)
    (e : Effect) (n : Nat) (he : e ≠ .stream) (h : s.inFrame p (bytes ++ [check]))
    (hc : exec c s
      = .next (s.endFrame p (bytes ++ [check]) (checkedDecision (s.port p) bytes check allowed e) n)) :
    ((s.port p).settings.checkRequired = true ∧ check ≠ crc8 bytes →
      exec c s = .next (s.framed p (bytes ++ [check]) [0xA2] .nothing n))
    ∧ ((s.port p).settings.checkRequired = false ∨ check = crc8 bytes →
      (allowed = true → exec c s = .next (s.framed p (bytes ++ [check]) [0xA5] e n))
      ∧ (allowed = false → exec c s = .next (s.framed p (bytes ++ [check]) [0xA6] .nothing n))) := by
  rw [s.endFrame_of_inFrame p _ h _ n (checkedDecision_effect_ne_stream _ _ _ _ e he)] at hc
  refine ⟨fun hbad => ?_, fun hgood => ⟨?_, ?_⟩⟩
  · rw [hc, checkedDecision_of_bad_check _ _ _ _ _ hbad]
    rfl
  all_goals
    rintro rfl
    rw [hc, checkedDecision_of_check _ _ _ _ _ hgood]
    rfl

/-- R118: a port that may confirm its boot. -/
theorem PortState.mayConfirm_eq (x : PortState) :
    x.mayConfirm = decide (x.bootState = .trial ∨ x.bootState = .unconfirmed) := by
  rw [PortState.mayConfirm, Bool.decide_or]
  rfl

/-- R121: a watchdog that runs. -/
theorem Watchdog.isRunning_eq (w : Watchdog) : w.isRunning = decide (w ≠ .stopped) := by
  cases w <;> rfl

/-- Settles O16: the eight requests share one decision. -/
theorem checkedFramesAreAcknowledged : Obligations.CheckedFramesAreAcknowledged := by
  intro p check b n s c bytes allowed effect hmem h
  simp only [List.mem_cons, Prod.mk.injEq, List.not_mem_nil, or_false] at hmem
  have hchecked : effect ≠ .stream ∧ exec c s
      = .next (s.endFrame p (bytes ++ [check]) (checkedDecision (s.port p) bytes check allowed effect) n) := by
    rcases hmem with hm | hm | hm | hm | hm | hm | hm | hm
    all_goals obtain ⟨rfl, rfl, rfl, rfl⟩ := hm
    case inr.inr.inr.inr.inr.inl => exact ⟨nofun, by rw [← PortState.mayConfirm_eq]; rfl⟩
    case inr.inr.inr.inr.inr.inr.inl => exact ⟨nofun, by rw [← Watchdog.isRunning_eq]; rfl⟩
    all_goals exact ⟨nofun, rfl⟩
  exact s.exec_checked_of_inFrame p c bytes check allowed effect n hchecked.1 h hchecked.2

end Sys2Proof.Machine
end

section
/-! PROOFS. Requests from the deselect that takes them to their presentation: the decided effects, the presentation of requests
marked or forbidden, the kinds that settle with no bank, and the deadlines. -/

namespace Sys2Proof.Machine

open Sys2Proof

/-! ## The deselect (R44, R55, R151) -/

/-- R151: the deselect of a decided transaction with no stream open takes its effect of the deselected port. -/
theorem exec_deselect_of_decided (p : Port) (bytes : List Byte) (n : Nat) (s : State) (t : Transaction) (d : Decision)
    (ht : (s.port p).transaction = some t) (hi : t.ignored = false) (hc : t.cut = false) (hd : t.decision = some d)
    (hs : (s.port p).stream = none) (hn : bytes.length = n) :
    exec (.deselect p bytes) s
      = .next ((s.setPort p ((s.port p).deselected t n)).takeEffect p t.silenced (t.taken + n - t.frame.length)
          d.effect).finish := by
  subst hn
  have hf : t.isFraming = false := t.isFraming_eq_false (.inr (.inr (by simp [hd])))
  have hdeselect : (s.takeBytes p t bytes).deselect p
      = (s.setPort p ((s.port p).deselected t bytes.length)).takeEffect p t.silenced
          (t.taken + bytes.length - t.frame.length) d.effect := by
    rw [s.takeBytes_of_not_framing p t bytes ht hf hs]
    simp only [State.deselect, State.port_setPort_self, State.endTransaction, Transaction.isLive, hi, hc, hd, State.modPort,
      State.setPort_setPort, Bool.not_false, Bool.and_self, if_true]
    rw [State.closeStream_of_none _ p (by rw [State.port_setPort_self]; exact hs)]
    rfl
  simp only [exec, execDeselect, ht, t.completedBy_of_not_framing bytes hf, Bool.false_eq_true, if_false, hdeselect]

/-- R151: an effect that changes its port alone. -/
theorem State.modPort_setPort (s : State) (p : Port) (x : PortState) (f : PortState → PortState) :
    (s.setPort p x).modPort p f = s.setPort p (f x) := by
  rw [State.modPort, State.port_setPort_self, State.setPort_setPort]

/-- Settles O20: each effect is one change of the deselected port, or none. -/
theorem deselectTakesTheDecidedEffect : Obligations.DeselectTakesTheDecidedEffect := by
  intro p bytes n s t d ht hi hc hd hs hn
  rw [exec_deselect_of_decided p bytes n s t d ht hi hc hd hs hn]
  refine ⟨fun he => ?_, fun he => ?_, fun he => ?_, fun set he => ?_, fun set he => ?_, fun set he => ?_, fun m he => ?_⟩
  · rcases he with he | he | he
    all_goals
      rw [he]
      rfl
  case refine_7 =>
    rw [he, State.takeEffect]
    refine ⟨fun hheard hm => ?_, fun hlost => ?_⟩
    · rw [hheard, decide_eq_true hm, State.modPort_setPort]
      rfl
    · refine congrArg (fun u : State => Host.Outcome.next u.finish) (if_neg ?_)
      rw [Bool.and_eq_true, Bool.not_eq_true', decide_eq_true_iff]
      rintro ⟨hheard, hm⟩
      rcases hlost with hsilenced | hshort
      · exact Bool.false_ne_true (hheard.symm.trans hsilenced)
      · exact Nat.not_le.2 hshort hm
  all_goals
    rw [he]
    simp only [State.takeEffect, State.clearSticky, State.modPort_setPort, PortState.deselected]

/-- R48: a presentation is the next step where its port alone has one due. -/
theorem State.internalStep_of_presentable (s : State) (p : Port) (hp : (s.port p).presentable = true)
    (ho : ∀ q, q ≠ p → (s.port q).presentable = false) : s.internalStep = some (s.present p) := by
  have hfind : allPorts.find? (fun q => (s.port q).presentable) = some p := by
    cases h : allPorts.find? (fun q => (s.port q).presentable) with
    | none => exact absurd hp (List.find?_eq_none.1 h p (mem_allPorts p))
    | some q =>
      have hq := List.find?_some h
      by_contra hne
      rw [ho q fun e => hne (congrArg some e)] at hq
      cases hq
  rw [State.internalStep, hfind]

/-- R51: the timer that a deadline setting gives a request. -/
theorem Deadline.timer_eq (d : Deadline) :
    d.timer = match d with
      | .off => .stopped
      | .ms10 => .running 10
      | .ms100 => .running 100
      | .s1 => .running 1000 := by
  cases d <;> rfl

/-- R44: a port that accepts a request. -/
theorem PortState.accept_eq (x : PortState) (r : Request) :
    x.accept r = { x with
      queue := x.queue ++ [⟨r, x.settings.deadline.timer, false⟩]
      latch := if r.kind = .program ∨ r.kind = .eraseSector ∨ r.kind = .eraseRegion then false else x.latch } := by
  simp only [PortState.accept, RequestKind.isWrite_iff]

/-- Settles O21: the port accepts the request, and no other port has a presentation due. -/
theorem deselectAcceptsTheRequest : Obligations.DeselectAcceptsTheRequest := by
  intro p bytes n s t d r ht hi hc hd hs hn he
  refine ⟨_, rfl, ?_, fun hquiet hcurrent => ?_⟩
  · rw [exec_deselect_of_decided p bytes n s t d ht hi hc hd hs hn, he, State.takeEffect, State.modPort_setPort,
      PortState.accept_eq, Deadline.timer_eq]
    rfl
  · obtain ⟨hports, -⟩ := s.quiet_iff.1 hquiet
    refine State.internalStep_of_presentable _ p ?_ fun q hq => ?_
    · rw [State.port_setPort_self]
      simp [PortState.presentable, PortState.deselected, hcurrent]
    · rw [State.port_setPort, if_neg hq, PortState.presentable_eq_false]
      exact hports q

/-! ## Requests that end as they are presented (R42, R48) -/

/-- R42: the kinds that only the administrator port may submit. -/
theorem RequestKind.adminOnly_iff (k : RequestKind) :
    k.adminOnly = true ↔ k ∈ [RequestKind.defineRegion, .clearRegion, .setAccess, .bindView, .lockRegion, .setBoot,
      .resetMaster, .flushPort, .storeConfig] := by
  cases k <;> simp [RequestKind.adminOnly]

/-- R48, step 2: the requests that a port may not submit. -/
theorem State.notAdmin_iff (s : State) (p : Port) (r : Request) :
    s.notAdmin p r = true ↔ p ≠ s.admin
      ∧ (r.kind ∈ [RequestKind.defineRegion, .clearRegion, .setAccess, .bindView, .lockRegion, .setBoot,
          .resetMaster, .flushPort, .storeConfig]
        ∨ (r.kind = .armTrial ∨ r.kind = .setPort) ∧ (r.byte 0).toNat ≠ p.val) := by
  simp only [State.notAdmin, Bool.and_eq_true, bne_iff_ne, Bool.or_eq_true, RequestKind.adminOnly_iff, beq_iff_eq, Ne,
    portOfByte_eq_some]

/-- R48, step 1: a marked request. -/
theorem State.presentQueued_of_expired (s : State) (p : Port) (q : Queued) (rest : List Queued) (he : q.expired = true) :
    s.presentQueued p q rest = s.answered p rest q.request .expired := by
  refine Eq.trans ?_ (s.completeBare_madeCurrent p rest q.toCurrent .expired)
  simp only [State.presentQueued, he, if_true]
  rfl

/-- R48, step 2: a forbidden request. -/
theorem State.presentQueued_of_notAdmin (s : State) (p : Port) (q : Queued) (rest : List Queued) (he : q.expired = false)
    (ha : s.notAdmin p q.request = true) : s.presentQueued p q rest = s.answered p rest q.request .notAdmin := by
  refine Eq.trans ?_ (s.completeBare_madeCurrent p rest q.toCurrent .notAdmin)
  simp only [State.presentQueued, he, ha, if_true, Bool.false_eq_true, if_false]
  rfl

/-- Settles O28: the first two steps of a presentation. -/
theorem presentationEndsMarkedAndForbidden : Obligations.PresentationEndsMarkedAndForbidden := by
  intro p s q rest h
  rw [exec_presentation p s q rest h]
  refine ⟨fun he => ?_, fun he hp hkind => ?_⟩
  · rw [s.presentQueued_of_expired p q rest he]
  · rw [s.presentQueued_of_notAdmin p q rest he ((s.notAdmin_iff p q.request).2 ⟨hp, hkind⟩)]

/-! ## SET_PORT and FLUSH_PORT (R58, R61) -/

/-- R33, R49: a request that is settled at its presentation, by what its edit makes of the state before it. -/
theorem exec_presentation_settled (p : Port) (s : State) (q : Queued) (rest : List Queued) (r : Request)
    (h : s.heads p q rest) (he : q.expired = false) (hr : q.request = r) (ha : s.notAdmin p r = false)
    (edited : Option State)
    (hkind : ∀ cur, (s.madeCurrent p rest cur).examineKind p r
      = (s.madeCurrent p rest cur).settleEdit p (edited.map fun u => u.madeCurrent p rest cur)) :
    (edited = none → exec (.presentation p) s = .next (s.answered p rest r .conflict).finish)
    ∧ ∀ u, edited = some u → exec (.presentation p) s = .next (u.answered p rest r .done).finish := by
  have hrequest : q.toCurrent.request = r := hr
  rw [exec_presentation_of_allowed p s q rest r h he hr ha, hkind]
  refine ⟨fun hnone => ?_, fun u hu => ?_⟩
  · rw [hnone, Option.map_none, State.settleEdit, State.completeBare_madeCurrent, hrequest]
  · rw [hu, Option.map_some, State.settleEdit, State.completeBare_madeCurrent, hrequest]

/-- Table 11-1: a byte that is a deadline. -/
theorem deadlineOfByte_eq (b : Byte) : deadlineOfByte b = [Deadline.off, .ms10, .ms100, .s1][b.toNat]? := by
  unfold deadlineOfByte
  generalize b.toNat = code
  rcases code with _ | _ | _ | _ | code <;> rfl

/-- R58: when SET_PORT is refused. -/
theorem State.setPortSettings_eq_none (s : State) (r : Request)
    (h : 4 ≤ (r.byte 0).toNat ∨ 2 ≤ (r.byte 1).toNat ∨ 4 ≤ (r.byte 2).toNat) : s.setPortSettings r = none := by
  unfold State.setPortSettings
  split
  · next t check deadline ht hc hd =>
    rw [portOfByte_eq_some] at ht
    rw [boolOfByte_eq_some] at hc
    rw [deadlineOfByte_eq] at hd
    have hdeadline : (r.byte 2).toNat < 4 := (List.getElem?_eq_some_iff.1 hd).1
    have hcheck := check.toNat_lt
    omega
  · rfl

/-- R58: what SET_PORT sets. -/
theorem State.setPortSettings_of_fields (s : State) (r : Request) (t : Port) (check : Bool) (deadline : Deadline)
    (ht : (r.byte 0).toNat = t.val) (hc : (r.byte 1).toNat = check.toNat)
    (hd : [Deadline.off, .ms10, .ms100, .s1][(r.byte 2).toNat]? = some deadline) :
    s.setPortSettings r = some (s.modPort t fun x => { x with settings := ⟨check, deadline⟩ }) := by
  rw [State.setPortSettings, (portOfByte_eq_some _ _).2 ht, (boolOfByte_eq_some _ _).2 hc, deadlineOfByte_eq, hd]

theorem State.setPortSettings_madeCurrent (s : State) (p : Port) (rest : List Queued) (cur : Current) (r : Request) :
    (s.madeCurrent p rest cur).setPortSettings r = (s.setPortSettings r).map fun u => u.madeCurrent p rest cur := by
  unfold State.setPortSettings
  split
  · exact congrArg some (s.modPort_madeCurrent p _ rest cur _ fun _ => rfl)
  · rfl

/-- A change of another port than the one whose request is made current. -/
theorem State.modPort_madeCurrent_of_ne (s : State) {p t : Port} (h : t ≠ p) (rest : List Queued) (cur : Current)
    (f : PortState → PortState) :
    (s.madeCurrent p rest cur).modPort t f = (s.modPort t f).madeCurrent p rest cur := by
  rw [State.modPort, State.port_madeCurrent, if_neg h, State.madeCurrent, State.madeCurrent, State.port_modPort,
    if_neg h.symm, State.modPort, s.setPort_comm h.symm]

theorem State.withdrawStore_madeCurrent (s : State) (p t : Port) (rest : List Queued) (cur : Current) :
    (s.madeCurrent p rest cur).withdrawStore t = (s.withdrawStore t).madeCurrent p rest cur := by
  rw [State.withdrawStore_eq, State.withdrawStore_eq]
  rfl

theorem State.closeStream_madeCurrent (s : State) {p t : Port} (h : t ≠ p) (rest : List Queued) (cur : Current) :
    (s.madeCurrent p rest cur).closeStream t = (s.closeStream t).madeCurrent p rest cur := by
  unfold State.closeStream
  rw [State.port_madeCurrent, if_neg h]
  split
  · rfl
  · rw [State.modPort_madeCurrent_of_ne _ h]
    rfl

/-- R59: the flush of another port than the one whose request is made current. -/
theorem State.flush_madeCurrent (s : State) {p t : Port} (h : t ≠ p) (rest : List Queued) (cur : Current) :
    (s.madeCurrent p rest cur).flush t = (s.flush t).madeCurrent p rest cur := by
  have hmod := State.modPort_madeCurrent_of_ne ((s.modBank 0 fun k => k.flush t).modBank 1 fun k => k.flush t) h rest cur
    PortState.flush
  rw [State.flush, State.flush, ← State.closeStream_madeCurrent _ h, ← State.withdrawStore_madeCurrent, ← hmod]
  rfl

/-- R61: FLUSH_PORT does not see the current request of the administrator port. -/
theorem State.flushPort_madeCurrent (s : State) (rest : List Queued) (cur : Current) (r : Request) :
    (s.madeCurrent s.admin rest cur).flushPort r
      = (s.flushPort r).map fun u => u.madeCurrent s.admin rest cur := by
  unfold State.flushPort
  split
  · rfl
  · next t ht =>
    change (if t = s.admin then none else some ((s.madeCurrent s.admin rest cur).flush t)) = _
    split
    · rfl
    · next hne => exact congrArg some (s.flush_madeCurrent hne rest cur)

/-- R61: when FLUSH_PORT is refused. -/
theorem State.flushPort_eq_none (s : State) (r : Request)
    (h : 4 ≤ (r.byte 0).toNat ∨ (r.byte 0).toNat = s.admin.val) : s.flushPort r = none := by
  rcases h with h | h
  · rw [State.flushPort, (portOfByte_eq_none _).2 h]
  · rw [State.flushPort, (portOfByte_eq_some _ _).2 h]
    exact if_pos rfl

/-- R61: what FLUSH_PORT flushes. -/
theorem State.flushPort_of_port (s : State) (r : Request) (t : Port) (ht : (r.byte 0).toNat = t.val) (hne : t ≠ s.admin) :
    s.flushPort r = some (s.flush t) := by
  rw [State.flushPort, (portOfByte_eq_some _ _).2 ht]
  exact if_neg hne

/-- R48, step 2: a SET_PORT of a port for itself is allowed, and every one of the administrator port. -/
theorem State.notAdmin_setPort (s : State) (p : Port) (r : Request) (hkind : r.kind = .setPort)
    (h : p = s.admin ∨ (r.byte 0).toNat = p.val) : s.notAdmin p r = false := by
  rw [← Bool.not_eq_true, State.notAdmin_iff, hkind]
  rintro ⟨hp, hmem | ⟨-, hne⟩⟩
  · exact absurd hmem (by decide)
  · exact h.elim hp hne

/-- Settles O35: the two kinds as edits of the state before the presentation. -/
theorem setPortAndFlushPort : Obligations.SetPortAndFlushPort := by
  intro p s q rest r h he hr
  refine ⟨fun hkind => ?_, fun hkind hp => ?_⟩
  · have hsettled := fun ha => exec_presentation_settled p s q rest r h he hr (s.notAdmin_setPort p r hkind ha)
      (s.setPortSettings r) fun cur => by
        rw [← s.setPortSettings_madeCurrent p rest cur r]
        simp only [State.examineKind, hkind]
    refine ⟨fun hout => ?_, fun t check deadline ht hmay hc hd => ?_⟩
    · rcases hout with ⟨hp, ht⟩ | ⟨hmay, hfield⟩
      · exact (hsettled (.inl hp)).1 (s.setPortSettings_eq_none r (.inl ht))
      · exact (hsettled hmay).1 (s.setPortSettings_eq_none r (.inr hfield))
    · exact (hsettled (hmay.imp_right fun htp : t = p => htp ▸ ht)).2 _
        (s.setPortSettings_of_fields r t check deadline ht hc hd)
  · subst hp
    have hsettled := exec_presentation_settled s.admin s q rest r h he hr (s.notAdmin_admin r) (s.flushPort r) fun cur => by
      rw [← s.flushPort_madeCurrent rest cur r]
      simp only [State.examineKind, hkind]
    exact ⟨fun hout => hsettled.1 (s.flushPort_eq_none r hout),
      fun t ht hne => hsettled.2 _ (s.flushPort_of_port r t ht hne)⟩

/-! ## RESET_MASTER and STORE_CONFIG (R49, R124, R135) -/

/-- R50: the boot states after a request is answered. -/
theorem State.bootState_answered (s : State) (p t : Port) (rest : List Queued) (r : Request) (st : Status) :
    ((s.answered p rest r st).port t).bootState = (s.port t).bootState := by
  rw [State.answered, State.port_setPort]
  split
  · next h => rw [h]
  · rfl

/-- R134: the write of the block begins where no presentation is due. -/
theorem State.internalStep_of_writeDue (s : State) (hports : ∀ k, (s.port k).presentable = false)
    (hdue : s.writeDue = true) : s.internalStep = some s.beginWrite := by
  have hfind : allPorts.find? (fun q => (s.port q).presentable) = none :=
    List.find?_eq_none.2 fun q _ => by rw [hports q]; exact Bool.false_ne_true
  simp only [State.internalStep, hfind, hdue, if_true]

/-- Settles O36: a RESET_MASTER is answered before its pulse starts, and a STORE_CONFIG waits for the writer. -/
theorem resetMasterAndStoreConfig : Obligations.ResetMasterAndStoreConfig := by
  intro p s q rest r h he hr hp
  have hexec := exec_presentation_of_allowed p s q rest r h he hr (hp ▸ s.notAdmin_admin r)
  refine ⟨fun hkind => ?_, fun hkind => ⟨_, rfl, ?_, fun hidle hothers => ?_⟩⟩
  · have hanswered := fun st => s.completeBare_madeCurrent p rest q.toCurrent st
    rw [show q.toCurrent.request = r from hr] at hanswered
    simp only [State.examineKind, hkind, State.presentReset, hanswered] at hexec
    refine ⟨fun hout => ?_, fun t ht => ?_⟩
    · rw [hexec, (portOfByte_eq_none (r.byte 0)).2 hout]
    · rw [(portOfByte_eq_some (r.byte 0) t).2 ht] at hexec
      refine ⟨fun hrunning => ?_, fun hfailed => ?_⟩
      · rw [hexec]
        simp only [State.resetMaster, State.bootState_answered, if_neg hrunning]
      · rw [hexec]
        simp only [State.resetMaster, State.bootState_answered, if_pos hfailed]
  · have hcurrent : q.toCurrent = ⟨r, .stopped, none, none⟩ := by
      simp [Queued.toCurrent, hr, hkind, RequestKind.isBankKind]
    rw [hexec, hcurrent]
    simp only [State.examineKind, hkind]
    rfl
  · refine State.internalStep_of_writeDue _ (fun k => ?_) (by simp [State.writeDue, hidle])
    have hport : (s.madeCurrent p rest ⟨r, .stopped, none, none⟩).port k
        = if k = p then { s.port p with queue := rest, current := some ⟨r, .stopped, none, none⟩ } else s.port k :=
      s.port_madeCurrent p k rest _
    change ((s.madeCurrent p rest ⟨r, .stopped, none, none⟩).port k).presentable = false
    rw [hport]
    split
    · rfl
    · next hk => exact hothers k hk

/-! ## Deadlines (R51, R52) -/

/-- R52: the bank where a request waits that has not been granted. -/
theorem State.waitsUngranted_of_candidate (s : State) (p : Port) (b : BankId) (c : Candidate)
    (hc : (s.bank b).candidate p = some c) (hg : c.granted = false)
    (hothers : ∀ k c', k ≠ b → (s.bank k).candidate p = some c' → c'.granted = true) :
    s.waitsUngranted p = some b := by
  cases h : s.waitsUngranted p with
  | none => exact absurd (List.find?_eq_none.1 h b (mem_allBanks b)) (by simp [hc, hg])
  | some k =>
    have hk := List.find?_some h
    rw [Option.any_eq_true] at hk
    obtain ⟨c', hc', hg'⟩ := hk
    by_contra hne
    rw [hothers k c' (fun e => hne (congrArg some e)) hc'] at hg'
    cases hg'

/-- Settles O37: the mark of a queued request, and the candidate taken out of its set. -/
theorem deadlineExpiryMarksOrExpires : Obligations.DeadlineExpiryMarksOrExpires := by
  intro p s
  refine ⟨fun i q ms hq ht => ?_, fun cur ms b c hcur ht hc hg hothers => ?_⟩
  · simp only [exec, execDeadlineExpiry, hq, ht, Timer.isRunning, if_true]
    rfl
  · have hwaits := s.waitsUngranted_of_candidate p b c hc hg hothers
    simp only [exec, execDeadlineExpiry, hcur, hwaits, ht, Timer.isRunning, if_true, State.expireCandidate,
      State.completeBare]
    rw [State.complete_of_current (s.modBank b fun k => k.setCandidate p none) p cur .expired false [] hcur]
    rfl

end Sys2Proof.Machine
end

section
/-! PROOFS. Where the request of each port stands, and how many credits it uses: one view of the state for both, and what
each operation leaves of them. -/

namespace Sys2Proof.Machine

open Sys2Proof

/-! ## The place of a port's request (R48, R49, R64, R97, R133) -/

/-- What port p has at a bank: whether its waiting entry is a verify chunk's, the kind of its read in the read slot, and
whether the write slot is its own. -/
@[ext] structure BankPlace where
  entry : Option Bool
  reads : Option ReadKind
  writes : Bool

/-- A port that has nothing at a bank. -/
def BankPlace.nowhere : BankPlace := ⟨none, none, false⟩

/-- What a port has at a bank. -/
def Bank.placeOf (k : Bank) (p : Port) : BankPlace where
  entry := (k.candidate p).map fun c => c.target.isVerify
  reads := k.readSlot.bind fun op => if op.owner = .port p then some op.kind else none
  writes :=
    match k.writeSlot with
    | .none => false
    | .busy _ op => decide (op.owner = .port p)

/-- One place at a bank, for a request that has a verify record or has none. -/
inductive BankPlace.Single (record : Bool) : BankPlace → Prop where
  | entry (verify : Bool) (h : verify = true → record = true) : Single record ⟨some verify, none, false⟩
  | reads (kind : ReadKind) (h : kind = .verifyChunk → record = true) : Single record ⟨none, some kind, false⟩
  | writes : Single record ⟨none, none, true⟩

/-- Where the current request of a port stands: its kind and whether it has a verify record, what the port has at each
bank, and whether the writer holds a STORE_CONFIG for it. -/
@[ext] structure Standing where
  current : Option (RequestKind × Bool)
  bank : BankId → BankPlace
  stores : Bool

/-- A port that stands nowhere, whatever its current request. -/
def Standing.away (current : Option (RequestKind × Bool)) : Standing := ⟨current, fun _ => .nowhere, false⟩

/-- A port that has one thing at one bank. -/
def Standing.atBank (current : Option (RequestKind × Bool)) (b : BankId) (x : BankPlace) : Standing :=
  ⟨current, Function.update (fun _ => .nowhere) b x, false⟩

/-- R48, R49, R64, R133: a port with no current request stands nowhere; a request of a bank kind stands in one place at
one bank, and a STORE_CONFIG at the writer. -/
inductive Standing.Placed : Standing → Prop where
  | idle : Placed (.away none)
  | atBank (b : BankId) (kind : RequestKind) (record : Bool) (x : BankPlace) (hk : kind.isBankKind = true)
      (hx : x.Single record) : Placed (.atBank (some (kind, record)) b x)
  | inWriter (record : Bool) : Placed ⟨some (.storeConfig, record), fun _ => .nowhere, true⟩

/-- What a current request shows of itself here. -/
def Current.shown (c : Current) : RequestKind × Bool := (c.request.kind, c.verify.isSome)

/-- Where port p's request stands. -/
def State.standing (s : State) (p : Port) : Standing where
  current := (s.port p).current.map Current.shown
  bank b := (s.bank b).placeOf p
  stores := s.storesFor p

/-- Where every request stands, with what the writer does and the start-up state. -/
@[ext] structure Placing where
  standing : Port → Standing
  writing : Bool
  waiting : Bool
  carried : Bool
  startUp : StartUp

/-- Where every request of the part stands. -/
def State.placing (s : State) : Placing :=
  ⟨s.standing, s.writer.snapshot.isSome, s.writer.waiting, s.writer.carried, s.startUp⟩

/-- The request of port p stands elsewhere. -/
def Placing.set (g : Placing) (p : Port) (v : Standing) : Placing :=
  { g with standing := Function.update g.standing p v }

/-- R64, R97, R133: every request stands in its place and a carried STORE_CONFIG has its write, in a start-up state. -/
structure Placing.Sound (u : StartUp) (g : Placing) : Prop where
  placed : ∀ p, (g.standing p).Placed
  carried : g.carried = true → g.writing = true ∧ g.waiting = false
  startUp : g.startUp = u

/-- The later of two places stands. -/
@[simp] theorem Placing.set_set (g : Placing) (p : Port) (v w : Standing) : (g.set p v).set p w = g.set p w := by
  simp [Placing.set]

@[simp] theorem Placing.standing_set (g : Placing) (p : Port) (v : Standing) : (g.set p v).standing p = v := by
  simp [Placing.set]

/-- A port that stands where it stood. -/
@[simp] theorem Placing.set_standing (g : Placing) (p : Port) : g.set p (g.standing p) = g := by
  simp [Placing.set]

/-- One request moved to a place of its own leaves every request placed. -/
theorem Placing.Sound.set {u : StartUp} {g : Placing} (h : g.Sound u) {p : Port} {v : Standing} (hv : v.Placed) :
    (g.set p v).Sound u := by
  refine ⟨fun q => ?_, h.carried, h.startUp⟩
  by_cases hq : q = p
  · subst hq; rw [Placing.standing_set]; exact hv
  · simp only [Placing.set, Function.update_of_ne hq]; exact h.placed q

/-! ## The model's invariant in these terms -/

/-- How many things a port has at a bank. -/
def BankPlace.count (x : BankPlace) : Nat := x.entry.isSome.toNat + x.reads.isSome.toNat + x.writes.toNat

/-- A bank's count of a port's places. -/
theorem Bank.placesOf_eq (k : Bank) (p : Port) : k.placesOf p = (k.placeOf p).count := by
  have hreads : (k.placeOf p).reads.isSome = k.readSlot.any fun op => op.owner == .port p := by
    cases hr : k.readSlot with
    | none => simp [Bank.placeOf, hr]
    | some op => by_cases ho : op.owner = .port p <;> simp [Bank.placeOf, hr, ho]
  have hentry : (k.placeOf p).entry.isSome = (k.candidate p).isSome := by simp [Bank.placeOf]
  simp only [Bank.placesOf, BankPlace.count, hentry, hreads, Bool.toNat, cond_eq_ite]
  cases hw : k.writeSlot with
  | none => simp [Bank.placeOf, hw]
  | busy st op => by_cases ho : op.owner = .port p <;> simp [Bank.placeOf, hw, ho]

/-- R97: a verify chunk of a port, waiting or in the read slot, has its verify record. -/
theorem State.verifyRecordKept_iff (s : State) (b : BankId) (p : Port) :
    s.verifyRecordKept b p ↔ (((s.standing p).bank b).entry = some true
        ∨ ((s.standing p).bank b).reads = some .verifyChunk →
      ∃ k, (s.standing p).current = some (k, true)) := by
  have hrecord : (s.verifyOf p).isSome = true ↔ ∃ k, (s.standing p).current = some (k, true) := by
    cases hc : (s.port p).current <;> simp [State.verifyOf, State.standing, Current.shown, hc]
  have hentry : ((s.bank b).candidate p).any (fun c => c.target.isVerify) = true
      ↔ ((s.standing p).bank b).entry = some true := by
    cases hc : (s.bank b).candidate p <;> simp [State.standing, Bank.placeOf, hc]
  have hreads : (s.bank b).readSlot.any (fun op => op.owner == .port p && op.kind == .verifyChunk) = true
      ↔ ((s.standing p).bank b).reads = some .verifyChunk := by
    cases hr : (s.bank b).readSlot <;> simp [State.standing, Bank.placeOf, hr]
  rw [State.verifyRecordKept, hentry, hreads, hrecord, or_imp]

/-- A port that has nothing at a bank, by its count. -/
theorem BankPlace.eq_nowhere (x : BankPlace) (h : x.count = 0) : x = .nowhere := by
  obtain ⟨entry, reads, writes⟩ := x
  cases entry <;> cases reads <;> cases writes <;> simp_all [BankPlace.nowhere, BankPlace.count]

/-- One place at a bank, by its count. -/
theorem BankPlace.single_of_count (x : BankPlace) (record : Bool) (h : x.count = 1)
    (hv : x.entry = some true ∨ x.reads = some .verifyChunk → record = true) : x.Single record := by
  obtain ⟨entry, reads, writes⟩ := x
  cases entry with
  | some verify =>
    cases reads <;> cases writes <;> simp [BankPlace.count] at h
    exact .entry verify fun e => hv (.inl (by rw [e]))
  | none =>
    cases reads with
    | some kind =>
      cases writes <;> simp [BankPlace.count] at h
      exact .reads kind fun e => hv (.inr (by rw [e]))
    | none =>
      cases writes <;> simp [BankPlace.count] at h
      exact .writes

/-- One place counts for one, and a verify chunk in it has its record. -/
theorem BankPlace.Single.count_and_record {x : BankPlace} {record : Bool} (h : x.Single record) :
    x.count = 1 ∧ (x.entry = some true ∨ x.reads = some .verifyChunk → record = true) := by
  cases h with
  | entry verify h => exact ⟨rfl, fun hv => h (by simpa using hv)⟩
  | reads kind h => exact ⟨rfl, fun hv => h (by simpa using hv)⟩
  | writes => exact ⟨rfl, fun hv => by simp at hv⟩

/-- A port with nothing at either bank. -/
theorem Standing.bank_eq_nowhere (v : Standing) (h : (v.bank 0).count + (v.bank 1).count = 0) :
    v.bank = fun _ => .nowhere := by
  have hzero : ∀ b, (v.bank b).count = 0 := fun b => by fin_cases b <;> simp <;> omega
  exact funext fun b => BankPlace.eq_nowhere _ (hzero b)

/-- A port with one thing at the two banks has it at one of them. -/
theorem Standing.bank_eq_update (v : Standing) (h : (v.bank 0).count + (v.bank 1).count = 1) :
    ∃ b, (v.bank b).count = 1 ∧ v.bank = Function.update (fun _ => .nowhere) b (v.bank b) := by
  have hother : ∀ b c d : BankId, b ≠ c → d ≠ b → d = c := by decide
  have hone : ∀ b c : BankId, b ≠ c → (v.bank c).count = 0 →
      v.bank = Function.update (fun _ => .nowhere) b (v.bank b) := fun b c hne hc => funext fun d => by
    by_cases hd : d = b
    · subst hd; simp
    · rw [Function.update_of_ne hd, hother b c d hne hd, BankPlace.eq_nowhere _ hc]
  by_cases h0 : (v.bank 0).count = 0
  · exact ⟨1, by omega, hone 1 0 (by decide) h0⟩
  · exact ⟨0, by omega, hone 0 1 (by decide) (by omega)⟩

/-- What the model's invariant says of one port, in terms of where it stands. -/
def Standing.Counted (v : Standing) : Prop :=
  match v.current with
  | none => (v.bank 0).count + (v.bank 1).count = 0 ∧ v.stores = false
  | some (k, _) =>
    if k.isBankKind = true then (v.bank 0).count + (v.bank 1).count = 1 ∧ v.stores = false
    else (v.bank 0).count + (v.bank 1).count = 0 ∧ v.stores = true ∧ k = .storeConfig

/-- A port's request stands in its place exactly where the counts are right and every verify chunk has its record. -/
theorem Standing.placed_iff (v : Standing) :
    v.Placed ↔ v.Counted ∧ ∀ b, (v.bank b).entry = some true ∨ (v.bank b).reads = some .verifyChunk →
      ∃ k, v.current = some (k, true) := by
  constructor
  · intro h
    cases h with
    | idle => exact ⟨⟨rfl, rfl⟩, fun b hb => by simp [Standing.away, BankPlace.nowhere] at hb⟩
    | inWriter record => exact ⟨⟨rfl, rfl, rfl⟩, fun b hb => by simp [BankPlace.nowhere] at hb⟩
    | atBank b k record x hk hx =>
      obtain ⟨hcount, hrecord⟩ := hx.count_and_record
      refine ⟨(if_pos hk).mpr ⟨?_, rfl⟩, fun c hc => ?_⟩
      · fin_cases b <;> simpa [Standing.atBank, BankPlace.nowhere, BankPlace.count] using hcount
      · by_cases hcb : c = b
        · subst hcb
          rw [hrecord (by simpa [Standing.atBank] using hc)]
          exact ⟨k, rfl⟩
        · simp [Standing.atBank, Function.update_of_ne hcb, BankPlace.nowhere] at hc
  · rintro ⟨hcounted, hrecord⟩
    obtain ⟨current, bank, stores⟩ := v
    rcases current with _ | ⟨k, record⟩
    · obtain ⟨hcount, hstores⟩ := hcounted
      obtain rfl : stores = false := hstores
      obtain rfl := Standing.bank_eq_nowhere _ hcount
      exact .idle
    · by_cases hk : k.isBankKind = true
      · obtain ⟨hcount, hstores⟩ := (if_pos hk).mp hcounted
        obtain rfl : stores = false := hstores
        obtain ⟨b, hone, hbank⟩ := Standing.bank_eq_update _ hcount
        have hx := BankPlace.single_of_count (bank b) record hone fun hv => by
          obtain ⟨k', hk'⟩ := hrecord b hv
          exact congrArg Prod.snd (Option.some.inj hk')
        have hplaced := Standing.Placed.atBank b k record (bank b) hk hx
        rwa [Standing.atBank, ← show bank = _ from hbank] at hplaced
      · obtain ⟨hcount, hstores, hkind⟩ := (if_neg hk).mp hcounted
        obtain rfl : stores = true := hstores
        obtain rfl : k = .storeConfig := hkind
        obtain rfl := Standing.bank_eq_nowhere _ hcount
        exact .inWriter record

/-- The model's test of one port, by its counts. -/
theorem State.requestPlaced_iff (s : State) (p : Port) : s.requestPlaced p = true ↔ (s.standing p).Counted := by
  have hplaces : s.placesOf p = ((s.standing p).bank 0).count + ((s.standing p).bank 1).count := by
    rw [State.placesOf, Bank.placesOf_eq, Bank.placesOf_eq]; rfl
  rw [Standing.Counted, ← hplaces]
  cases hc : (s.port p).current with
  | none => simp [State.requestPlaced, State.standing, hc]
  | some cur =>
    by_cases hk : cur.request.kind.isBankKind = true <;>
      simp [State.requestPlaced, State.standing, Current.shown, hc, hk, and_assoc]

/-- The model's invariant says that every request stands in its place. -/
theorem State.requestsPlaced_iff (s : State) : s.requestsPlaced ↔ s.placing.Sound s.startUp := by
  have hport : ∀ p, (s.placing.standing p).Placed
      ↔ s.requestPlaced p = true ∧ ∀ b, s.verifyRecordKept b p := fun p => by
    simp only [s.requestPlaced_iff, s.verifyRecordKept_iff]
    exact (s.standing p).placed_iff
  constructor
  · rintro ⟨hplaced, hrecord, hcarried⟩
    exact ⟨fun p => (hport p).2 ⟨hplaced p, fun b => hrecord b p⟩, hcarried, rfl⟩
  · rintro ⟨hplaced, hcarried, -⟩
    exact ⟨fun p => ((hport p).1 (hplaced p)).1, fun b p => ((hport p).1 (hplaced p)).2 b, hcarried⟩

end Sys2Proof.Machine
end

section
/-! PROOFS. The credits of a port, and the operations that leave the credits and the place of every request alone. -/

namespace Sys2Proof.Machine

open Sys2Proof

/-! ## Credits (R45, R46) -/

/-- R45, R46: the credits a port uses, the one that an ACCEPTED SUBMIT is about to take included. -/
def PortState.creditsUsed (x : PortState) : Nat := x.creditsInUse + x.promised

/-- No port uses more credits than before. -/
def State.NoMoreCredits (s t : State) : Prop := ∀ p, (t.port p).creditsUsed ≤ (s.port p).creditsUsed

theorem State.NoMoreCredits.refl (s : State) : s.NoMoreCredits s := fun _ => Nat.le_refl _

theorem State.NoMoreCredits.trans {s t u : State} (h : s.NoMoreCredits t) (h' : t.NoMoreCredits u) :
    s.NoMoreCredits u := fun p => (h' p).trans (h p)

/-- A port changed without a further credit. -/
theorem State.noMoreCredits_modPort (s : State) (p : Port) (f : PortState → PortState)
    (h : (f (s.port p)).creditsUsed ≤ (s.port p).creditsUsed) : s.NoMoreCredits (s.modPort p f) := fun q => by
  rw [State.port_modPort]
  split
  · next e => subst e; exact h
  · exact Nat.le_refl _

/-- R46: a completion hands the credit of its request on. -/
theorem State.noMoreCredits_complete (s : State) (p : Port) (st : Status) (w : Bool) (data : List Byte) :
    s.NoMoreCredits (s.complete p st w data) := by
  cases h : (s.port p).current with
  | none => rw [s.complete_of_none p _ _ _ h]; exact .refl s
  | some cur =>
    rw [s.complete_of_current p cur _ _ _ h]
    refine s.noMoreCredits_modPort p (fun _ => _) (Nat.le_of_eq ?_)
    simp only [PortState.creditsUsed, PortState.creditsInUse, PortState.promised, h, List.length_append]
    simp
    omega

/-! ## Where requests stand after a change of one part of the state -/

/-- A port whose current request shows the same stands where it stood. -/
theorem State.placing_modPort (s : State) (p : Port) (f : PortState → PortState) :
    (s.modPort p f).placing
      = s.placing.set p { s.standing p with current := (f (s.port p)).current.map Current.shown } := by
  have hstanding : (s.modPort p f).standing
      = Function.update s.standing p { s.standing p with current := (f (s.port p)).current.map Current.shown } := by
    funext q
    by_cases hq : q = p
    · subst hq; rw [Function.update_self]; simp only [State.standing, State.port_modPort_self]; rfl
    · rw [Function.update_of_ne hq]; simp only [State.standing, State.port_modPort, if_neg hq]; rfl
  rw [State.placing, hstanding]
  rfl

/-- A change of a bank moves no port but those whose place there it changes. -/
theorem State.placing_modBank (s : State) (b : BankId) (f : Bank → Bank) (p : Port)
    (h : ∀ q, q ≠ p → (f (s.bank b)).placeOf q = (s.bank b).placeOf q) :
    (s.modBank b f).placing
      = s.placing.set p { s.standing p with
          bank := Function.update (s.standing p).bank b ((f (s.bank b)).placeOf p) } := by
  have hstanding : (s.modBank b f).standing
      = Function.update s.standing p { s.standing p with
          bank := Function.update (s.standing p).bank b ((f (s.bank b)).placeOf p) } := by
    funext q
    have hbank : ∀ c, ((s.modBank b f).bank c).placeOf q
        = Function.update (fun c => (s.bank c).placeOf q) b ((f (s.bank b)).placeOf q) c := fun c => by
      rw [State.bank_modBank]
      by_cases hc : c = b
      · subst hc; simp
      · rw [if_neg hc, Function.update_of_ne hc]
    by_cases hq : q = p
    · subst hq; rw [Function.update_self]; simp only [State.standing, hbank]; rfl
    · rw [Function.update_of_ne hq]
      simp only [State.standing, hbank, h q hq, Function.update_eq_self_iff.2 rfl]; rfl
  rw [State.placing, hstanding]
  rfl

/-- R50: a completion takes its port's current request away. -/
theorem State.placing_complete (s : State) (p : Port) (st : Status) (w : Bool) (data : List Byte) :
    (s.complete p st w data).placing = s.placing.set p { s.standing p with current := none } := by
  cases h : (s.port p).current with
  | none =>
    have hcurrent : ({ s.standing p with current := none } : Standing) = s.placing.standing p := by
      simp [State.placing, State.standing, h]
    rw [s.complete_of_none p _ _ _ h, hcurrent, Placing.set_standing]
  | some cur =>
    rw [s.complete_of_current p cur _ _ _ h]
    exact s.placing_modPort p fun _ => _

/-! ## Operations that leave every request where it stands -/

/-- An operation gives no port a further credit and leaves every request where it stands. -/
structure State.LeavesRequests (s t : State) : Prop where
  credits : s.NoMoreCredits t
  placing : t.placing = s.placing

theorem State.LeavesRequests.refl (s : State) : s.LeavesRequests s := ⟨.refl s, rfl⟩

theorem State.LeavesRequests.trans {s t u : State} (h : s.LeavesRequests t) (h' : t.LeavesRequests u) :
    s.LeavesRequests u := ⟨h.credits.trans h'.credits, h'.placing.trans h.placing⟩

/-- A change of a port that shows the same current request and takes no credit. -/
theorem State.leavesRequests_modPort (s : State) (p : Port) (f : PortState → PortState)
    (hc : (f (s.port p)).current.map Current.shown = (s.port p).current.map Current.shown)
    (hu : (f (s.port p)).creditsUsed ≤ (s.port p).creditsUsed) : s.LeavesRequests (s.modPort p f) := by
  refine ⟨s.noMoreCredits_modPort p f hu, ?_⟩
  rw [s.placing_modPort, hc]
  exact s.placing.set_standing p

/-- A change of a bank that leaves every port's place there. -/
theorem State.leavesRequests_modBank (s : State) (b : BankId) (f : Bank → Bank)
    (h : ∀ q, (f (s.bank b)).placeOf q = (s.bank b).placeOf q) : s.LeavesRequests (s.modBank b f) := by
  refine ⟨fun _ => Nat.le_refl _, ?_⟩
  rw [s.placing_modBank b f 0 fun q _ => h q, h]
  have hsame : ({ s.standing 0 with
      bank := Function.update (s.standing 0).bank b ((s.bank b).placeOf 0) } : Standing) = s.placing.standing 0 := by
    rw [show Function.update (s.standing 0).bank b ((s.bank b).placeOf 0) = (s.standing 0).bank from
      Function.update_eq_self b _]
    rfl
  rw [hsame, Placing.set_standing]

/-- Operations over a list leave what each of them leaves. -/
theorem State.leavesRequests_foldl {α : Type} (f : State → α → State)
    (hf : ∀ (s : State) (x : α), s.LeavesRequests (f s x)) (xs : List α) (s : State) :
    s.LeavesRequests (xs.foldl f s) := by
  induction xs generalizing s with
  | nil => exact .refl s
  | cons x rest ih => exact (hf s x).trans (ih _)

theorem State.leavesRequests_raise (s : State) (p : Port) (e : Event) : s.LeavesRequests (s.raise p e) :=
  s.leavesRequests_modPort p _ rfl (Nat.le_refl _)

theorem State.leavesRequests_setWindow (s : State) (p : Port) (w : Fin 4) (r : Option RegionId) :
    s.LeavesRequests (s.setWindow p w r) := s.leavesRequests_modPort p _ rfl (Nat.le_refl _)

theorem State.leavesRequests_setRegion (s : State) (n : RegionId) (e : RegionEntry) :
    s.LeavesRequests (s.setRegion n e) := ⟨.refl s, rfl⟩

theorem State.leavesRequests_bindBoot (s : State) (p : Port) (w0 w1 : RegionId) :
    s.LeavesRequests (s.bindBoot p w0 w1) :=
  (s.leavesRequests_setWindow p 0 _).trans (State.leavesRequests_setWindow _ p 1 _)

theorem State.leavesRequests_requestCommit (s : State) : s.LeavesRequests s.requestCommit := ⟨.refl s, rfl⟩

theorem State.leavesRequests_refreshLed (s : State) : s.LeavesRequests s.refreshLed := by
  obtain ⟨l, h⟩ := s.refreshLed_eq
  rw [h]
  exact ⟨.refl s, rfl⟩

/-- R51: a deadline timer that stops does not show. -/
theorem State.leavesRequests_stopDeadline (s : State) (p : Port) : s.LeavesRequests (s.stopDeadline p) := by
  refine s.leavesRequests_modPort p _ ?_ ?_
  · rw [Option.map_map]; rfl
  · simp [PortState.creditsUsed, PortState.creditsInUse, PortState.promised]

/-- R97: a verify record replaced does not show. -/
theorem State.leavesRequests_setVerify (s : State) (p : Port) (v w : VerifyRecord) (h : s.verifyOf p = some w) :
    s.LeavesRequests (s.setVerify p v) := by
  refine s.leavesRequests_modPort p _ ?_ ?_
  · cases hc : (s.port p).current with
    | none => rfl
    | some cur =>
      have hv : cur.verify = some w := by simpa [State.verifyOf, hc] using h
      simp [Current.shown, hv]
  · simp [PortState.creditsUsed, PortState.creditsInUse, PortState.promised]

theorem State.leavesRequests_markDisturbed (s : State) (b : BankId) (sector : Nat) (ps : List Port) :
    s.LeavesRequests (s.markDisturbed b sector ps) := by
  induction ps generalizing s with
  | nil => exact .refl s
  | cons p rest ih =>
    unfold State.markDisturbed
    refine State.LeavesRequests.trans ?_ (ih _)
    split
    · exact .refl s
    · next v hv =>
      split
      · exact s.leavesRequests_setVerify p _ v hv
      · exact .refl s

/-! ## Slots and streams -/

/-- A bank with the same entries, the same read and a write of the same owner has every port where it was. -/
theorem Bank.placeOf_congr {k k' : Bank} (q : Port) (hc : k'.candidate q = k.candidate q) (hr : k'.readSlot = k.readSlot)
    (hw : k'.writeSlot = k.writeSlot ∨ ∃ st st' op, k.writeSlot = .busy st op ∧ k'.writeSlot = .busy st' op) :
    k'.placeOf q = k.placeOf q := by
  refine BankPlace.ext ?_ ?_ ?_
  · simp only [Bank.placeOf, hc]
  · simp only [Bank.placeOf, hr]
  · rcases hw with hw | ⟨st, st', op, hw, hw'⟩
    · simp only [Bank.placeOf, hw]
    · simp only [Bank.placeOf, hw, hw']

theorem State.leavesRequests_startWrite (s : State) (b : BankId) (op : WriteOperation)
    (h : (s.bank b).startDue = some op) : s.LeavesRequests (s.startWrite b op) := by
  obtain ⟨hw, -, -⟩ := (Bank.startDue_eq_some _ _).1 h
  refine (s.leavesRequests_modBank b _ fun q => ?_).trans (State.leavesRequests_markDisturbed _ b _ _)
  cases ht : op.target with
  | program page start data =>
    simp only [Bank.start, ht]; exact Bank.placeOf_congr q rfl rfl (.inr ⟨_, _, _, hw, rfl⟩)
  | sectorErase sector =>
    simp only [Bank.start, ht]; exact Bank.placeOf_congr q rfl rfl (.inr ⟨_, _, _, hw, rfl⟩)

/-- R12: a suspend asked for moves no request. -/
theorem Bank.placeOf_requestSuspend (k : Bank) (q : Port) : k.requestSuspend.placeOf q = k.placeOf q := by
  unfold Bank.requestSuspend
  split
  · next op hw => exact Bank.placeOf_congr q rfl rfl (.inr ⟨_, _, _, hw, rfl⟩)
  · rfl

theorem State.leavesRequests_requestSuspend (s : State) (b : BankId) :
    s.LeavesRequests (s.modBank b Bank.requestSuspend) :=
  s.leavesRequests_modBank b _ (Bank.placeOf_requestSuspend _)

theorem State.leavesRequests_attemptSuspend (s : State) (b : BankId) :
    s.LeavesRequests (s.modBank b Bank.attemptSuspend) := by
  refine s.leavesRequests_modBank b _ fun q => ?_
  unfold Bank.attemptSuspend
  split
  · exact Bank.placeOf_requestSuspend _ q
  · rfl

theorem State.leavesRequests_suspendComplete (s : State) (b : BankId) (op : WriteOperation)
    (h : (s.bank b).writeSlot = .busy .suspending op) :
    s.LeavesRequests (s.modBank b fun k => k.suspendComplete op) :=
  s.leavesRequests_modBank b _ fun q => Bank.placeOf_congr q rfl rfl (.inr ⟨_, _, _, h, rfl⟩)

theorem State.leavesRequests_resume (s : State) (b : BankId) : s.LeavesRequests (s.modBank b Bank.resume) := by
  refine s.leavesRequests_modBank b _ fun q => ?_
  unfold Bank.resume
  split
  · next op hw => exact Bank.placeOf_congr q rfl rfl (.inr ⟨_, _, _, hw, rfl⟩)
  · rfl

theorem State.leavesRequests_openStream (s : State) (p : Port) (st : Stream) :
    s.LeavesRequests (s.openStream p st) :=
  (s.leavesRequests_modPort p _ rfl (Nat.le_refl _)).trans (State.leavesRequests_modBank _ st.bank _ fun _ => rfl)

theorem State.leavesRequests_closeStream (s : State) (p : Port) : s.LeavesRequests (s.closeStream p) := by
  unfold State.closeStream
  split
  · exact .refl s
  · exact (s.leavesRequests_modPort p _ rfl (Nat.le_refl _)).trans (State.leavesRequests_modBank _ _ _ fun _ => rfl)

/-- R154: a cut keeps the decision of the transaction, and the credit it promised. -/
theorem State.leavesRequests_cutTransaction (s : State) (p : Port) : s.LeavesRequests (s.cutTransaction p) := by
  cases hl : (s.port p).hasLive with
  | false => rw [s.cutTransaction_of_not_live p hl]; exact .refl s
  | true =>
    obtain ⟨tr, htr, hlive⟩ := (Option.any_eq_true _ _).1 hl
    rw [s.cutTransaction_of_live p tr htr hlive]
    refine s.leavesRequests_modPort p (fun _ => _) rfl (Nat.le_of_eq ?_)
    simp only [PortState.creditsUsed, PortState.creditsInUse, PortState.promised, htr]

/-! ## Edits and the boot record -/

theorem State.leavesRequests_raiseConfigEdits (s : State) (levels : Vector Level 4) (ps : List Port) :
    s.LeavesRequests (s.raiseConfigEdits levels ps) := by
  induction ps generalizing s with
  | nil => exact .refl s
  | cons p rest ih =>
    unfold State.raiseConfigEdits
    split
    · exact ih s
    · exact (s.leavesRequests_raise p _).trans (ih _)

/-- R33 to R38, R58, R125, R126: an edit of the tables, the boot records or the settings leaves every request. -/
theorem State.leavesRequests_edit {s t : State} {r : Request}
    (h : s.defineRegion r = some t ∨ s.clearRegion r = some t ∨ s.setAccess r = some t ∨ s.bindView r = some t
      ∨ s.lockRegion r = some t ∨ s.setBoot r = some t ∨ s.setPortSettings r = some t) : s.LeavesRequests t := by
  rcases h with h | h | h | h | h | h | h
  · obtain ⟨n, -, -, -, -, rfl⟩ := (s.defineRegion_eq_some t r).1 h
    exact s.leavesRequests_setRegion n _
  · obtain ⟨n, -, -, -, -, rfl⟩ := (s.clearRegion_eq_some t r).1 h
    exact s.leavesRequests_setRegion n _
  · obtain ⟨n, p, new, locked, range, levels, -, -, -, -, ⟨-, rfl⟩ | ⟨-, -, rfl⟩⟩ := (s.setAccess_eq_some t r).1 h
    · exact .refl _
    · exact (s.leavesRequests_setRegion n _).trans (State.leavesRequests_raise _ p _)
  · obtain ⟨p, w, target, -, -, -, -, -, ⟨-, rfl⟩ | ⟨-, rfl⟩⟩ := (s.bindView_eq_some t r).1 h
    · exact .refl _
    · exact (s.leavesRequests_setWindow p w _).trans (State.leavesRequests_raise _ p _)
  · obtain ⟨n, locked, range, levels, -, -, ⟨-, rfl⟩ | ⟨-, rfl⟩⟩ := (s.lockRegion_eq_some t r).1 h
    · exact .refl _
    · exact (s.leavesRequests_setRegion n _).trans (State.leavesRequests_raiseConfigEdits _ levels _)
  · obtain ⟨p, b, -, -, ⟨-, -, rfl⟩ | ⟨-, rfl⟩⟩ := (s.setBoot_eq_some t r).1 h
    · rw [s.enableBoot_eq]
      refine s.leavesRequests_modPort p (fun _ => _) ?_ ?_
      · split <;> rfl
      · split <;> exact Nat.le_refl _
    · exact s.leavesRequests_modPort p _ rfl (Nat.le_refl _)
  · unfold State.setPortSettings at h
    split at h
    · cases h; exact s.leavesRequests_modPort _ _ rfl (Nat.le_refl _)
    · cases h

theorem State.leavesRequests_pulseRelease (s : State) (p : Port) : s.LeavesRequests (s.pulseRelease p) := by
  have hstop : s.LeavesRequests (s.modPort p fun x => { x with pulse := .stopped }) :=
    s.leavesRequests_modPort p _ rfl (Nat.le_refl _)
  have hboot := fun w0 w1 => hstop.trans (State.leavesRequests_bindBoot _ p w0 w1)
  unfold State.pulseRelease
  dsimp only
  split
  · split
    · exact (hboot _ _).trans (State.leavesRequests_modPort _ p _ rfl (Nat.le_refl _))
    · exact (hboot _ _).trans (State.leavesRequests_modPort _ p _ rfl (Nat.le_refl _))
  · exact hstop

theorem State.leavesRequests_confirm (s : State) (p : Port) : s.LeavesRequests (s.confirm p) := by
  unfold State.confirm
  dsimp only
  split
  · exact s.leavesRequests_modPort p _ rfl (Nat.le_refl _)
  · exact ((s.leavesRequests_modPort p _ rfl (Nat.le_refl _)).trans (State.leavesRequests_bindBoot _ p _ _)).trans
      (State.leavesRequests_requestCommit _)
  · exact .refl s

theorem State.leavesRequests_watchdogHalf (s : State) (p : Port) : s.LeavesRequests (s.watchdogHalf p) := by
  unfold State.watchdogHalf
  split
  · exact (s.leavesRequests_modPort p _ rfl (Nat.le_refl _)).trans (State.leavesRequests_raise _ p _)
  · exact .refl s

theorem State.leavesRequests_fillTables (s : State) (i : ConfigImage) : s.LeavesRequests (s.fillTables i) :=
  State.LeavesRequests.trans (t := { s with regions := i.regions.map RegionEntry.stored }) ⟨.refl s, rfl⟩
    (State.leavesRequests_foldl _ (fun u p => u.leavesRequests_modPort p _ rfl (Nat.le_refl _)) _ _)

theorem State.leavesRequests_markExpired (s : State) (p : Port) (place : Nat) (q : Queued) :
    s.LeavesRequests (s.markExpired p place q) := by
  refine s.leavesRequests_modPort p _ rfl (Nat.le_of_eq ?_)
  simp only [PortState.creditsUsed, PortState.creditsInUse, PortState.promised, List.length_set]

end Sys2Proof.Machine
end

section
/-! PROOFS. The bytes of a transaction and the credit it promises; a request taken from its place and put in another. -/

namespace Sys2Proof.Machine

open Sys2Proof

/-! ## Bytes on the wire and the decision they promise -/

/-- Bytes on the wire leave every request where it stands. -/
theorem State.OnWire.placing {p : Port} {s t : State} (h : s.OnWire p t) : t.placing = s.placing := by
  obtain ⟨x, n, hx, rfl⟩ := h
  have hcurrent : x.current = (s.port p).current := by rw [hx]
  have hsame := s.placing_modPort p fun _ => x
  rw [hcurrent] at hsame
  exact hsame.trans (s.placing.set_standing p)

/-- R45: the credit that an effect takes at the deselect. -/
def Effect.credit : Effect → Nat
  | .accept _ => 1
  | _ => 0

/-- R45: the credit that a decided transaction promises. -/
theorem PortState.promised_of_decided (x : PortState) (tr : Transaction) (d : Decision) (ht : x.transaction = some tr)
    (hd : tr.decision = some d) : x.promised = d.effect.credit := by
  simp only [PortState.promised, ht, hd]
  cases d.effect <;> rfl

/-- R45: a transaction with no decision promises no credit. -/
theorem PortState.promised_of_undecided (x : PortState) (h : ∀ tr, x.transaction = some tr → tr.decision = none) :
    x.promised = 0 := by
  cases ht : x.transaction with
  | none => simp only [PortState.promised, ht]
  | some tr => simp only [PortState.promised, ht, h tr ht]

/-- A port changed on the wire alone to a transaction that promises no credit. -/
theorem State.noMoreCredits_of_unpromised (s : State) (p : Port) (f : PortState → PortState)
    (hu : (f (s.port p)).creditsInUse = (s.port p).creditsInUse) (hp : (f (s.port p)).promised = 0) :
    s.NoMoreCredits (s.modPort p f) := by
  refine s.noMoreCredits_modPort p f ?_
  rw [PortState.creditsUsed, hu, hp]
  exact Nat.le_add_right _ _

theorem State.leavesRequests_clockOut (s : State) (p : Port) (n : Nat) : s.LeavesRequests (s.clockOut p n) := by
  refine ⟨?_, (s.clockOut_onWire p n).placing⟩
  rcases s.clockOut_cases p n with h | ⟨tr, bytes, htr, h⟩ | ⟨tr, head, st, m, htr, -, h⟩
  · rw [h]; exact .refl s
  · rw [h]
    refine s.noMoreCredits_modPort p _ (Nat.le_of_eq ?_)
    simp only [PortState.creditsUsed, PortState.creditsInUse, PortState.promised, htr]
  · rw [h, State.sendStream, State.send, State.modPort_modPort]
    have hport : s.NoMoreCredits (s.modPort p fun x => { x with
        stream := some (st.advance m)
        transaction := some { tr with
          taken := tr.taken + (head ++ (s.sample (st.addresses m) s.freeCount).1).length }
        sdo := x.sdo ++ (head ++ (s.sample (st.addresses m) s.freeCount).1) }) := by
      refine s.noMoreCredits_modPort p _ (Nat.le_of_eq ?_)
      simp only [PortState.creditsUsed, PortState.creditsInUse, PortState.promised, htr]
    exact hport

theorem State.leavesRequests_beginTransaction (s : State) (p : Port) (tr : Transaction) (n : Nat)
    (h : tr.decision = none) : s.LeavesRequests (s.beginTransaction p tr n) := by
  refine ⟨s.noMoreCredits_of_unpromised p _ rfl ?_, (s.beginTransaction_onWire p tr n).placing⟩
  exact PortState.promised_of_undecided _ fun _ htr => Option.some.inj htr ▸ h

/-- R145: further bytes of a frame that is not complete promise no credit. -/
theorem State.leavesRequests_takeBytes (s : State) (p : Port) (tr : Transaction) (bytes : List Byte) :
    s.LeavesRequests (s.takeBytes p tr bytes) := by
  unfold State.takeBytes
  split
  · refine ⟨s.noMoreCredits_of_unpromised p _ rfl ?_, (s.takeFrame_onWire p tr _ _).placing⟩
    exact PortState.promised_of_undecided _ fun _ htr => Option.some.inj htr ▸ rfl
  · exact s.leavesRequests_clockOut p _

theorem State.leavesRequests_passFrame (s : State) (p : Port) (n : Nat) : s.LeavesRequests (s.passFrame p n) := by
  unfold State.passFrame
  split
  · exact .refl s
  · exact s.leavesRequests_clockOut p n

/-- R150: a frame decided to no acceptance promises no credit. -/
theorem State.leavesRequests_endFrame (s : State) (p : Port) (frame : List Byte) (d : Decision) (n : Nat)
    (hd : d.effect.credit = 0) : s.LeavesRequests (s.endFrame p frame d n) := by
  unfold State.endFrame
  split
  · have hdecide : s.LeavesRequests (s.decideFrame p frame d) := by
      refine ⟨?_, (s.decideFrame_onWire p frame d).placing⟩
      unfold State.decideFrame
      split
      · exact .refl s
      · refine s.noMoreCredits_of_unpromised p _ rfl ?_
        rw [PortState.promised_of_decided _ _ d rfl rfl, hd]
    exact hdecide.trans (State.leavesRequests_clockOut _ p n)
  · exact s.leavesRequests_passFrame p _

/-! ## Requests taken from their places -/

/-- Every request stands in its place but port p's, which stands nowhere. -/
def Placing.Lifted (u : StartUp) (p : Port) (current : Option (RequestKind × Bool)) (g : Placing) : Prop :=
  ∃ h : Placing, h.Sound u ∧ g = h.set p (.away current)

/-- A port that stands nowhere, seen in the state. -/
theorem Placing.Lifted.standing {u : StartUp} {p : Port} {current : Option (RequestKind × Bool)} {s : State}
    (h : s.placing.Lifted u p current) : s.standing p = .away current := by
  obtain ⟨g, -, hg⟩ := h
  have hp := congrArg (fun x : Placing => x.standing p) hg
  rwa [Placing.standing_set] at hp

/-- A request that stands nowhere is placed by one move. -/
theorem Placing.Lifted.set {u : StartUp} {p : Port} {current : Option (RequestKind × Bool)} {g : Placing} {v : Standing}
    (h : g.Lifted u p current) (hv : v.Placed) : (g.set p v).Sound u := by
  obtain ⟨k, hk, rfl⟩ := h
  rw [Placing.set_set]
  exact hk.set hv

/-- R50: a request that stands nowhere completes. -/
theorem State.sound_complete {s : State} {u : StartUp} {p : Port} {current : Option (RequestKind × Bool)}
    (h : s.placing.Lifted u p current) (st : Status) (w : Bool) (data : List Byte) :
    (s.complete p st w data).placing.Sound u := by
  rw [s.placing_complete, h.standing]
  exact h.set .idle

/-- A port that stands nowhere is given one thing at one bank. -/
theorem State.sound_modBank {s : State} {u : StartUp} {p : Port} {kind : RequestKind} {record : Bool}
    (h : s.placing.Lifted u p (some (kind, record))) (hk : kind.isBankKind = true) (b : BankId) (f : Bank → Bank)
    (hothers : ∀ q, q ≠ p → (f (s.bank b)).placeOf q = (s.bank b).placeOf q)
    (hp : ((f (s.bank b)).placeOf p).Single record) : (s.modBank b f).placing.Sound u := by
  rw [s.placing_modBank b f p hothers, h.standing]
  exact h.set (.atBank b kind record _ hk hp)

/-- A port with nothing at a bank, in the bank's own terms. -/
theorem State.placeOf_of_lifted {s : State} {u : StartUp} {p : Port} {current : Option (RequestKind × Bool)}
    (h : s.placing.Lifted u p current) (b : BankId) : (s.bank b).placeOf p = .nowhere :=
  congrFun (congrArg Standing.bank h.standing) b

/-- An entry replaced is all that its port has new at the bank. -/
theorem Bank.placeOf_setCandidate (k : Bank) (p q : Port) (c : Option Candidate) :
    (k.setCandidate p c).placeOf q
      = if q = p then { k.placeOf p with entry := c.map fun c => c.target.isVerify } else k.placeOf q := by
  split
  · next hq => subst hq; simp only [Bank.placeOf, Bank.candidate_setCandidate, if_true]; rfl
  · next hq => exact Bank.placeOf_congr q (by rw [Bank.candidate_setCandidate, if_neg hq]) rfl (.inl rfl)

/-- R65: a request of a bank kind joins a candidate set. -/
theorem State.sound_join {s : State} {u : StartUp} {p : Port} {kind : RequestKind} {record : Bool}
    (h : s.placing.Lifted u p (some (kind, record))) (hk : kind.isBankKind = true) (b : BankId) (c : Candidate)
    (hc : c.target.isVerify = true → record = true) : (s.join b p c).placing.Sound u := by
  refine State.sound_modBank h hk b _ (fun q hq => ?_) ?_
  · rw [Bank.placeOf_setCandidate, if_neg hq]
  · rw [Bank.placeOf_setCandidate, if_pos rfl, State.placeOf_of_lifted h]
    exact .entry _ hc

/-- R70: a request of a bank kind enters an IDLE read slot. -/
theorem State.sound_enterReadSlot {s : State} {u : StartUp} {p : Port} {kind : RequestKind} {record : Bool}
    (h : s.placing.Lifted u p (some (kind, record))) (hk : kind.isBankKind = true) (b : BankId)
    (kindRead : ReadKind) (first length : Nat) (digest : Option Word) (hr : (s.bank b).readSlot = none)
    (hc : kindRead = .verifyChunk → record = true) :
    (s.enterReadSlot b ⟨.port p, kindRead, first, length⟩ digest).placing.Sound u := by
  refine State.sound_modBank h hk b _ (fun q hq => ?_) ?_
  · have hne : ¬ p = q := fun e => hq e.symm
    simp [Bank.placeOf, Bank.candidate, hr, hne]
  · have haway := State.placeOf_of_lifted h b
    have hplace : ({ s.bank b with
          readSlot := some ⟨.port p, kindRead, first, length⟩, digest := digest } : Bank).placeOf p
        = { (s.bank b).placeOf p with reads := some kindRead } := by
      simp [Bank.placeOf, Bank.candidate]
    rw [hplace, haway]
    exact .reads _ hc

/-- R71: a request of a bank kind enters a write slot that is NONE. -/
theorem State.sound_enterWriteSlot {s : State} {u : StartUp} {p : Port} {kind : RequestKind} {record : Bool}
    (h : s.placing.Lifted u p (some (kind, record))) (hk : kind.isBankKind = true) (b : BankId) (st : WriteState)
    (target : WriteTarget) (chunk : Option Nat) (hw : (s.bank b).writeSlot = .none) :
    (s.modBank b fun k => { k with writeSlot := .busy st ⟨.port p, target, chunk⟩ }).placing.Sound u := by
  refine State.sound_modBank h hk b _ (fun q hq => ?_) ?_
  · have hne : ¬ p = q := fun e => hq e.symm
    simp [Bank.placeOf, Bank.candidate, hw, hne]
  · have haway := State.placeOf_of_lifted h b
    have hplace : ({ s.bank b with writeSlot := .busy st ⟨.port p, target, chunk⟩ } : Bank).placeOf p
        = { (s.bank b).placeOf p with writes := true } := by
      simp [Bank.placeOf, Bank.candidate]
    rw [hplace, haway]
    exact .writes

/-- A request that has a place at a bank has no other: its kind is one of a bank, and it stands nowhere once it leaves. -/
theorem Standing.Placed.at_bank {v : Standing} (h : v.Placed) (b : BankId) (hb : v.bank b ≠ .nowhere) :
    ∃ kind record, kind.isBankKind = true ∧ v.current = some (kind, record) ∧ (v.bank b).Single record
      ∧ { v with bank := Function.update v.bank b .nowhere } = .away (some (kind, record)) := by
  cases h with
  | idle => exact absurd rfl hb
  | inWriter record => exact absurd rfl hb
  | atBank c kind record x hk hx =>
    obtain rfl : b = c := by
      by_contra hne
      exact hb (by simp [Standing.atBank, Function.update_of_ne hne])
    exact ⟨kind, record, hk, rfl, by simpa [Standing.atBank] using hx, by simp [Standing.atBank, Standing.away]⟩

/-- A request leaves the bank where it stands: it is of a bank kind and stands nowhere. -/
theorem State.lifted_modBank {s : State} {u : StartUp} (h : s.placing.Sound u) (b : BankId) (f : Bank → Bank) (p : Port)
    (hb : (s.bank b).placeOf p ≠ .nowhere) (hothers : ∀ q, q ≠ p → (f (s.bank b)).placeOf q = (s.bank b).placeOf q)
    (hp : ∀ record, ((s.bank b).placeOf p).Single record → (f (s.bank b)).placeOf p = .nowhere) :
    ∃ kind record, kind.isBankKind = true ∧ (s.standing p).current = some (kind, record)
      ∧ ((s.bank b).placeOf p).Single record ∧ (s.modBank b f).placing.Lifted u p (some (kind, record)) := by
  obtain ⟨kind, record, hk, hcurrent, hx, haway⟩ := (h.placed p).at_bank b hb
  refine ⟨kind, record, hk, hcurrent, hx, s.placing, h, ?_⟩
  rw [s.placing_modBank b f p hothers, hp record hx]
  exact congrArg _ haway

/-- R66: an entry leaves its set. -/
theorem State.lifted_setCandidate {s : State} {u : StartUp} (h : s.placing.Sound u) (b : BankId) (p : Port) (c : Candidate)
    (hc : (s.bank b).candidate p = some c) :
    ∃ kind record, kind.isBankKind = true ∧ (s.standing p).current = some (kind, record)
      ∧ (c.target.isVerify = true → record = true)
      ∧ (s.modBank b fun k => k.setCandidate p none).placing.Lifted u p (some (kind, record)) := by
  have hentry : ((s.bank b).placeOf p).entry = some c.target.isVerify := by simp [Bank.placeOf, hc]
  obtain ⟨kind, record, hk, hcurrent, hx, hlifted⟩ := State.lifted_modBank h b (fun k => k.setCandidate p none) p
    (fun e => by rw [e] at hentry; cases hentry)
    (fun q hq => by rw [Bank.placeOf_setCandidate, if_neg hq]) (fun record hx => by
      rw [Bank.placeOf_setCandidate, if_pos rfl]
      generalize (s.bank b).placeOf p = x at hentry hx
      cases hx with
      | entry verify h => rfl
      | reads kind h => cases hentry
      | writes => cases hentry)
  refine ⟨kind, record, hk, hcurrent, fun hv => hx.count_and_record.2 (.inl ?_), hlifted⟩
  rw [hentry, hv]

/-- R7: a port's read leaves the read slot. -/
theorem State.lifted_endRead {s : State} {u : StartUp} (h : s.placing.Sound u) (b : BankId) (p : Port)
    (op : ReadOperation) (hr : (s.bank b).readSlot = some op) (ho : op.owner = .port p) :
    ∃ kind record, kind.isBankKind = true ∧ (s.standing p).current = some (kind, record)
      ∧ (op.kind = .verifyChunk → record = true)
      ∧ (s.modBank b fun k => k.endRead op).placing.Lifted u p (some (kind, record)) := by
  have hreads : ((s.bank b).placeOf p).reads = some op.kind := by simp [Bank.placeOf, hr, ho]
  obtain ⟨kind, record, hk, hcurrent, hx, hlifted⟩ := State.lifted_modBank h b (fun k => k.endRead op) p
    (fun e => by rw [e] at hreads; cases hreads)
    (fun q hq => by
      have hne : ¬ p = q := fun e => hq e.symm
      simp [Bank.placeOf, Bank.endRead, Bank.candidate, hr, ho, hne]) (fun record hx => by
      have hplace : ((s.bank b).endRead op).placeOf p = { (s.bank b).placeOf p with reads := none } := by
        simp [Bank.placeOf, Bank.endRead, Bank.candidate]
      rw [hplace]
      generalize (s.bank b).placeOf p = x at hreads hx
      cases hx with
      | entry verify h => cases hreads
      | reads kind h => rfl
      | writes => cases hreads)
  refine ⟨kind, record, hk, hcurrent, fun hv => hx.count_and_record.2 (.inr ?_), hlifted⟩
  rw [hreads, hv]

/-- R10, R11: a port's write leaves the write slot. -/
theorem State.lifted_endWrite {s : State} {u : StartUp} (h : s.placing.Sound u) (b : BankId) (p : Port) (st : WriteState)
    (op : WriteOperation) (hw : (s.bank b).writeSlot = .busy st op) (ho : op.owner = .port p) (n : Nat) :
    ∃ kind record, kind.isBankKind = true ∧ (s.standing p).current = some (kind, record)
      ∧ (s.modBank b fun k => { k with writeSlot := .none, suspendCount := n }).placing.Lifted u p
          (some (kind, record)) := by
  have hwrites : ((s.bank b).placeOf p).writes = true := by simp [Bank.placeOf, hw, ho]
  obtain ⟨kind, record, hk, hcurrent, -, hlifted⟩ := State.lifted_modBank h b
    (fun k => { k with writeSlot := .none, suspendCount := n }) p
    (fun e => by rw [e] at hwrites; cases hwrites)
    (fun q hq => by
      have hne : ¬ p = q := fun e => hq e.symm
      simp [Bank.placeOf, Bank.candidate, hw, ho, hne]) (fun record hx => by
      have hplace : ({ s.bank b with writeSlot := .none, suspendCount := n } : Bank).placeOf p
          = { (s.bank b).placeOf p with writes := false } := by
        simp [Bank.placeOf, Bank.candidate]
      rw [hplace]
      generalize (s.bank b).placeOf p = x at hwrites hx
      cases hx with
      | entry verify h => cases hwrites
      | reads kind h => cases hwrites
      | writes => rfl)
  exact ⟨kind, record, hk, hcurrent, hlifted⟩

end Sys2Proof.Machine
end

section
/-! PROOFS. Each operation that moves a request gives no port a further credit. -/

namespace Sys2Proof.Machine

open Sys2Proof

/-! ## Credits over the operations (R45, R46, R50) -/

theorem State.noMoreCredits_modBank (s : State) (b : BankId) (f : Bank → Bank) : s.NoMoreCredits (s.modBank b f) :=
  fun _ => Nat.le_refl _

theorem State.noMoreCredits_completeBare (s : State) (p : Port) (st : Status) : s.NoMoreCredits (s.completeBare p st) :=
  s.noMoreCredits_complete p st false []

/-- R56: a flush leaves what was decided, and so the credit it promises. -/
theorem Transaction.decision_flush (tr : Transaction) : tr.flush.decision = tr.decision := by
  unfold Transaction.flush
  split
  · rfl
  · split <;> rfl

/-- R59: a flush gives every credit of its port back but a promised one. -/
theorem State.noMoreCredits_flush (s : State) (p : Port) : s.NoMoreCredits (s.flush p) := fun q => by
  rw [State.port_flush]
  split
  · next h =>
    subst h
    have hpromised : ({ (s.port q).flush with stream := none } : PortState).promised = (s.port q).promised := by
      cases ht : (s.port q).transaction with
      | none => simp only [PortState.promised, PortState.flush, ht, Option.map_none]
      | some tr => simp only [PortState.promised, PortState.flush, ht, Option.map_some, tr.decision_flush]
    rw [PortState.creditsUsed, hpromised]
    exact Nat.add_le_add_right (Nat.zero_le _) _
  · exact Nat.le_refl _

theorem State.noMoreCredits_flushCut (s : State) (p : Port) : s.NoMoreCredits ((s.flush p).cutTransaction p) :=
  (s.noMoreCredits_flush p).trans (State.leavesRequests_cutTransaction _ p).credits

theorem State.noMoreCredits_pulseStart (s : State) (p : Port) (cause : Option Cause) :
    s.NoMoreCredits (s.pulseStart p cause) :=
  (s.noMoreCredits_flushCut p).trans (State.noMoreCredits_modPort _ p _ (Nat.le_refl _))

theorem State.noMoreCredits_enterFailed (s : State) (p : Port) : s.NoMoreCredits (s.enterFailed p) :=
  ((s.noMoreCredits_flushCut p).trans (State.noMoreCredits_modPort _ p PortState.enterFailed (Nat.le_refl _))).trans
    (State.leavesRequests_raise _ s.admin .peerFailed).credits

theorem State.noMoreCredits_bootTimerExpiry (s : State) (p : Port) : s.NoMoreCredits (s.bootTimerExpiry p) := by
  have hown := fun f h => s.noMoreCredits_modPort p f h
  unfold State.bootTimerExpiry
  split
  · exact ((hown _ (Nat.le_refl _)).trans (State.leavesRequests_raise _ p _).credits).trans
      (State.noMoreCredits_pulseStart _ p _)
  · dsimp only
    split
    · exact (hown _ (Nat.le_refl _)).trans (State.noMoreCredits_pulseStart _ p _)
    · exact (hown _ (Nat.le_refl _)).trans (State.noMoreCredits_enterFailed _ p)
  · exact .refl s

theorem State.noMoreCredits_serviceCode (s : State) (p : Port) (code : Byte) : s.NoMoreCredits (s.serviceCode p code) := by
  unfold State.serviceCode
  split
  · exact .refl s
  · split
    · exact s.noMoreCredits_modPort p _ (Nat.le_refl _)
    · exact s.noMoreCredits_pulseStart p _

theorem State.noMoreCredits_resetMaster (s : State) (t : Port) : s.NoMoreCredits (s.resetMaster t) := by
  unfold State.resetMaster
  split
  · exact (s.noMoreCredits_modPort t _ (Nat.le_refl _)).trans (State.noMoreCredits_pulseStart _ t _)
  · exact s.noMoreCredits_pulseStart t _

/-! ### Presentation -/

theorem State.noMoreCredits_carryOut (s : State) (p : Port) (a : Admission) : s.NoMoreCredits (s.carryOut p a) := by
  unfold State.carryOut
  split
  · exact s.noMoreCredits_completeBare p _
  · refine (s.noMoreCredits_modPort p _ ?_).trans (State.noMoreCredits_modBank _ _ _)
    simp only [PortState.creditsUsed, PortState.creditsInUse, PortState.promised, Option.isSome_map, Nat.le_refl]

theorem State.noMoreCredits_settleEdit (s : State) (p : Port) (edited : Option State)
    (h : ∀ t, edited = some t → s.NoMoreCredits t) : s.NoMoreCredits (s.settleEdit p edited) := by
  unfold State.settleEdit
  split
  · exact s.noMoreCredits_completeBare p _
  · exact (h _ rfl).trans (State.noMoreCredits_completeBare _ p _)

theorem State.noMoreCredits_flushPort {s t : State} {r : Request} (h : s.flushPort r = some t) : s.NoMoreCredits t := by
  unfold State.flushPort at h
  split at h
  · cases h
  · split at h
    · cases h
    · obtain rfl := Option.some.inj h
      exact s.noMoreCredits_flush _

theorem State.noMoreCredits_examineKind (s : State) (p : Port) (r : Request) :
    s.NoMoreCredits (s.examineKind p r) := by
  have hedit := fun (edited : Option State) (h : ∀ t, edited = some t → s.LeavesRequests t) =>
    s.noMoreCredits_settleEdit p edited fun t ht => (h t ht).credits
  unfold State.examineKind
  split
  case h_14 =>
    unfold State.presentReset
    split
    · exact s.noMoreCredits_completeBare p _
    · exact (s.noMoreCredits_completeBare p _).trans (State.noMoreCredits_resetMaster _ _)
  case h_15 => exact s.noMoreCredits_settleEdit p _ fun t ht => State.noMoreCredits_flushPort ht
  case h_16 => exact .refl s
  case h_7 => exact hedit _ fun t ht => State.leavesRequests_edit (.inl ht)
  case h_8 => exact hedit _ fun t ht => State.leavesRequests_edit (.inr (.inl ht))
  case h_9 => exact hedit _ fun t ht => State.leavesRequests_edit (.inr (.inr (.inl ht)))
  case h_10 => exact hedit _ fun t ht => State.leavesRequests_edit (.inr (.inr (.inr (.inl ht))))
  case h_11 => exact hedit _ fun t ht => State.leavesRequests_edit (.inr (.inr (.inr (.inr (.inl ht)))))
  case h_12 => exact hedit _ fun t ht => State.leavesRequests_edit (.inr (.inr (.inr (.inr (.inr (.inl ht))))))
  case h_13 => exact hedit _ fun t ht => State.leavesRequests_edit (.inr (.inr (.inr (.inr (.inr (.inr ht))))))
  all_goals exact s.noMoreCredits_carryOut p _

/-- R48: a queued request keeps its credit as the current one. -/
theorem State.noMoreCredits_madeCurrent (s : State) (p : Port) (q : Queued) (rest : List Queued) (h : s.heads p q rest)
    (cur : Current) : s.NoMoreCredits (s.madeCurrent p rest cur) := by
  obtain ⟨hcurrent, hqueue⟩ := h
  refine s.noMoreCredits_modPort p (fun _ => _) (Nat.le_of_eq ?_)
  simp only [PortState.creditsUsed, PortState.creditsInUse, PortState.promised, hcurrent, hqueue, List.length_cons]
  simp

theorem State.noMoreCredits_present (s : State) (p : Port) : s.NoMoreCredits (s.present p) := by
  unfold State.present
  split
  · next q rest hcurrent hqueue =>
    have hmade := s.noMoreCredits_madeCurrent p q rest ⟨hcurrent, hqueue⟩ q.toCurrent
    change s.NoMoreCredits (if q.expired then (s.madeCurrent p rest q.toCurrent).completeBare p .expired
      else if s.notAdmin p q.request then (s.madeCurrent p rest q.toCurrent).completeBare p .notAdmin
      else (s.madeCurrent p rest q.toCurrent).examineKind p q.request)
    split
    · exact hmade.trans (State.noMoreCredits_completeBare _ p _)
    · split
      · exact hmade.trans (State.noMoreCredits_completeBare _ p _)
      · exact hmade.trans (State.noMoreCredits_examineKind _ p _)
  · exact .refl s

/-! ### The banks and the writer -/

theorem State.noMoreCredits_grant (s : State) (b : BankId) (p : Port) (c : Candidate) :
    s.NoMoreCredits (s.grant b p c) := by
  have htake : s.NoMoreCredits (s.takeGrant b p) :=
    (s.noMoreCredits_modBank b _).trans (State.leavesRequests_stopDeadline _ p).credits
  have hwrite : ∀ target chunk, s.NoMoreCredits ((s.takeGrant b p).grantWrite b p target chunk) := fun target chunk => by
    unfold State.grantWrite
    split
    · exact htake.trans (State.noMoreCredits_completeBare _ p _)
    · exact htake.trans (State.noMoreCredits_modBank _ b _)
  unfold State.grant
  dsimp only
  split
  · exact htake.trans (State.noMoreCredits_modBank _ b _)
  · unfold State.grantVerify
    split
    · exact htake
    · split
      · exact htake.trans (State.noMoreCredits_completeBare _ p _)
      · exact htake.trans (State.noMoreCredits_modBank _ b _)
  · exact hwrite _ _
  · exact hwrite _ _

theorem State.noMoreCredits_decideArm (s : State) (p : Port) (v : VerifyRecord) (a : Arming) (digest : Word) :
    s.NoMoreCredits (s.decideArm p v a digest) := by
  unfold State.decideArm
  split
  · exact s.noMoreCredits_completeBare p _
  · split
    · exact s.noMoreCredits_completeBare p _
    · split
      · exact s.noMoreCredits_completeBare p _
      · exact (s.noMoreCredits_modPort a.target _ (Nat.le_refl _)).trans (State.noMoreCredits_completeBare _ p _)

theorem State.noMoreCredits_returnChunk (s : State) (b : BankId) (p : Port) (v w : VerifyRecord) (register : Word)
    (h : s.verifyOf p = some w) : s.NoMoreCredits (s.returnChunk b p v register) := by
  unfold State.returnChunk
  split
  · exact (s.leavesRequests_setVerify p _ w h).credits.trans (State.noMoreCredits_modBank _ b _)
  · split
    · exact s.noMoreCredits_complete p _ _ _
    · exact s.noMoreCredits_decideArm p v _ _

theorem State.noMoreCredits_readComplete (s : State) (b : BankId) (op : ReadOperation) :
    s.NoMoreCredits (s.readComplete b op) := by
  have hend : ∀ n, s.NoMoreCredits { (s.modBank b fun k => k.endRead op) with freeCount := n } := fun n => .refl s
  unfold State.readComplete
  dsimp only
  split
  · exact .refl s
  · split
    · exact (hend _).trans (State.noMoreCredits_complete _ _ _ _ _)
    · split
      · exact hend _
      · next v hv => exact (hend _).trans (State.noMoreCredits_returnChunk _ b _ v v _ hv)

theorem State.noMoreCredits_programComplete (s : State) (b : BankId) (owner : Owner) (page start : Nat)
    (data : List Byte) : s.NoMoreCredits (s.programComplete b owner page start data) := by
  have hend : s.NoMoreCredits { (s.modBank b fun k => { k with writeSlot := .none }) with
      array := s.array.program page start data } := .refl s
  unfold State.programComplete
  dsimp only
  split
  · exact hend
  · exact hend.trans (State.noMoreCredits_complete _ _ _ _ _)

theorem State.noMoreCredits_nextErase (s : State) (b : BankId) (p : Port) (chunk : Option Nat) :
    s.NoMoreCredits (s.nextErase b p chunk) := by
  unfold State.nextErase
  split
  · split
    · exact s.noMoreCredits_modBank b _
    · exact s.noMoreCredits_completeBare p _
  · exact s.noMoreCredits_completeBare p _

theorem State.noMoreCredits_eraseComplete (s : State) (b : BankId) (owner : Owner) (sector : Nat)
    (chunk : Option Nat) : s.NoMoreCredits (s.eraseComplete b owner sector chunk) := by
  have hend : s.NoMoreCredits { (s.modBank b fun k => { k with writeSlot := .none, suspendCount := 0 }) with
      array := s.array.erase (sector * Config.sectorBytes) Config.sectorBytes } := .refl s
  unfold State.eraseComplete
  dsimp only
  split
  · exact hend
  · exact hend.trans (State.noMoreCredits_nextErase _ b _ _)

theorem State.noMoreCredits_completeWrite (s : State) (image : ConfigImage) :
    s.NoMoreCredits (s.completeWrite image) := by
  have hraise : s.NoMoreCredits (({ s with
      block := some image.withCheck
      writer := { s.writer with snapshot := none, carried := false } } : State).raise s.admin .storeDone) :=
    (State.leavesRequests_raise _ _ _).credits
  unfold State.completeWrite
  dsimp only
  split
  · exact hraise.trans (State.noMoreCredits_completeBare _ _ _)
  · exact hraise

theorem State.noMoreCredits_loadTables (s : State) : s.NoMoreCredits s.loadTables := by
  have hpulses : ∀ (ps : List Port) (u : State), u.NoMoreCredits (ps.foldl (fun s p => s.pulseStart p none) u) := by
    intro ps
    induction ps with
    | nil => exact fun u => .refl u
    | cons p rest ih => exact fun u => (u.noMoreCredits_pulseStart p none).trans (ih _)
  have hready : ∀ u : State, u.NoMoreCredits { u with startUp := .ready } := fun u => .refl u
  unfold State.loadTables
  dsimp only
  split
  · exact ((s.leavesRequests_fillTables _).credits.trans (hready _)).trans (hpulses allPorts _)
  · exact (((s.leavesRequests_fillTables _).credits.trans (State.leavesRequests_raise _ _ _).credits).trans
      (hready _)).trans (hpulses allPorts _)

/-! ### The end of an event and the deselect -/

theorem State.noMoreCredits_internalStep {s t : State} (h : s.internalStep = some t) : s.NoMoreCredits t := by
  rcases State.internalStep_cases h with ⟨p, -, rfl⟩ | ⟨-, rfl⟩ | ⟨b, hb⟩
  · exact s.noMoreCredits_present p
  · exact .refl s
  · rcases hb with ⟨op, ho, rfl⟩ | ⟨-, p, c, -, rfl⟩ | ⟨-, -, -, rfl⟩ | ⟨-, -, -, -, rfl⟩
    · exact (s.leavesRequests_startWrite b op ho).credits
    · exact s.noMoreCredits_grant b p c
    · exact s.noMoreCredits_modBank b _
    · exact s.noMoreCredits_modBank b _

theorem State.noMoreCredits_finish (s : State) : s.NoMoreCredits s.finish :=
  State.finish_induction s.NoMoreCredits (fun _ _ h hi => h.trans (State.noMoreCredits_internalStep hi))
    (fun u h => h.trans u.leavesRequests_refreshLed.credits) s (.refl s)

/-- R45: an acceptance takes one credit. -/
theorem PortState.creditsUsed_accept (x : PortState) (r : Request) : (x.accept r).creditsUsed = x.creditsUsed + 1 := by
  have hused : (x.accept r).creditsUsed = (x.queue ++ [(⟨r, x.settings.deadline.timer, false⟩ : Queued)]).length
      + (if x.current.isSome then 1 else 0) + x.completions.length + x.promised := rfl
  rw [hused, PortState.creditsUsed, PortState.creditsInUse, List.length_append, List.length_singleton]
  omega

/-- R151: an effect takes no more than its own credit. -/
theorem State.creditsUsed_takeEffect (s : State) (p : Port) (silenced : Bool) (answered : Nat) (e : Effect) (q : Port) :
    ((s.takeEffect p silenced answered e).port q).creditsUsed
      ≤ (s.port q).creditsUsed + if q = p then e.credit else 0 := by
  have hkept : ∀ t : State, s.NoMoreCredits t →
      (t.port q).creditsUsed ≤ (s.port q).creditsUsed + if q = p then e.credit else 0 :=
    fun t h => (h q).trans (Nat.le_add_right _ _)
  cases e with
  | accept r =>
    simp only [State.takeEffect, State.port_modPort]
    split
    · next h =>
      subst h
      exact Nat.le_of_eq (PortState.creditsUsed_accept _ r)
    · exact Nat.le_refl _
  | nothing => exact hkept _ (.refl s)
  | stream => exact hkept _ (.refl s)
  | setLatch => exact hkept _ (s.noMoreCredits_modPort p _ (Nat.le_refl _))
  | clearLatch => exact hkept _ (s.noMoreCredits_modPort p _ (Nat.le_refl _))
  | clearEvents set => exact hkept _ (s.noMoreCredits_modPort p _ (Nat.le_refl _))
  | setEnables set => exact hkept _ (s.noMoreCredits_modPort p _ (Nat.le_refl _))
  | clearCauses set => exact hkept _ (s.noMoreCredits_modPort p _ (Nat.le_refl _))
  | confirmBoot => exact hkept _ (s.leavesRequests_confirm p).credits
  | service code => exact hkept _ (s.noMoreCredits_serviceCode p code)
  | restart => exact hkept _ (s.noMoreCredits_pulseStart p _)
  | fetched m =>
    cases m with
    | none => exact hkept _ (.refl s)
    | some n =>
      refine hkept _ ?_
      simp only [State.takeEffect]
      split
      · refine s.noMoreCredits_modPort p _ ?_
        simp only [PortState.creditsUsed, PortState.creditsInUse, PortState.promised, List.length_drop]
        omega
      · exact .refl s

/-- R45, R151: a deselect takes the credit that was promised. -/
theorem State.noMoreCredits_endTransaction (s : State) (p : Port) (tr : Transaction)
    (h : (s.port p).transaction = some tr) : s.NoMoreCredits (s.endTransaction p tr) := by
  have hfree : ∀ q, (((s.modPort p fun x => { x with selected := false, transaction := none }).port q).creditsUsed
      + if q = p then (s.port p).promised else 0) ≤ (s.port q).creditsUsed := fun q => by
    rw [State.port_modPort]
    split
    · next hq =>
      subst hq
      exact Nat.le_refl _
    · exact Nat.le_refl _
  have hended : s.NoMoreCredits (s.modPort p fun x => { x with selected := false, transaction := none }) :=
    fun q => (Nat.le_add_right _ _).trans (hfree q)
  unfold State.endTransaction
  dsimp only
  split
  · split
    · exact hended.trans (State.leavesRequests_raise _ p _).credits
    · next d hd =>
      intro q
      refine (State.creditsUsed_takeEffect _ p _ _ d.effect q).trans (le_trans ?_ (hfree q))
      rw [PortState.promised_of_decided _ tr d h hd]
      exact Nat.add_le_add_right ((State.leavesRequests_closeStream _ p).credits q) _
  · exact hended

theorem State.noMoreCredits_deselect (s : State) (p : Port) : s.NoMoreCredits (s.deselect p) := by
  unfold State.deselect
  split
  · exact .refl s
  · next tr htr => exact s.noMoreCredits_endTransaction p tr htr

end Sys2Proof.Machine
end

section
/-! PROOFS. Credits over every command: only the end of a SUBMIT's frame gives a port a further credit, and it is decided
where fewer than 8 are in use. -/

namespace Sys2Proof.Machine

open Sys2Proof

/-! ## The commands that give no port a further credit -/

theorem State.EventEffect.noMoreCredits {s u : State} {c : Instr} (h : s.EventEffect c u) : s.NoMoreCredits u.finish := by
  refine State.NoMoreCredits.trans ?_ u.noMoreCredits_finish
  cases h with
  | load _ => exact s.noMoreCredits_loadTables
  | deselect p bytes tr _ _ => exact (s.leavesRequests_takeBytes p tr bytes).credits.trans (State.noMoreCredits_deselect _ p)
  | holdLimit p bytes tr _ _ _ =>
    exact (((s.leavesRequests_takeBytes p tr bytes).trans (State.leavesRequests_cutTransaction _ p)).trans
      (State.leavesRequests_closeStream _ p)).credits
  | present p _ => exact s.noMoreCredits_present p
  | expire p b _ _ _ _ => exact (s.noMoreCredits_modBank b _).trans (State.noMoreCredits_completeBare _ p _)
  | grantRead b p c _ _ => exact s.noMoreCredits_grant b p c
  | grantWrite b p c _ _ => exact s.noMoreCredits_grant b p c
  | startWrite b op ho => exact (s.leavesRequests_startWrite b op ho).credits
  | suspendComplete b _ _ => exact s.noMoreCredits_modBank b _
  | resume b _ => exact s.noMoreCredits_modBank b _
  | readComplete b op _ => exact s.noMoreCredits_readComplete b op
  | programComplete b _ _ _ _ _ _ => exact s.noMoreCredits_programComplete b _ _ _ _
  | eraseComplete b _ _ _ _ _ _ => exact s.noMoreCredits_eraseComplete b _ _ _
  | pulseRelease p _ => exact (s.leavesRequests_pulseRelease p).credits
  | bootTimerExpiry p _ => exact s.noMoreCredits_bootTimerExpiry p
  | watchdogExpiry p _ => exact s.noMoreCredits_pulseStart p _
  | beginWrite _ => exact .refl s
  | completeWrite image _ => exact s.noMoreCredits_completeWrite image

/-- A command that is an event exactly under a condition. -/
theorem State.noMoreCredits_of_ite {s t u : State} {c : Instr} {e : Prop} [Decidable e]
    (h : (if e then Host.Outcome.next u.finish else .next s : Host.Outcome State Fault Refusal) = .next t)
    (he : e → s.EventEffect c u) : s.NoMoreCredits t := by
  split at h
  · next hc => cases h; exact (he hc).noMoreCredits
  · cases h; exact .refl s

/-- R62, R139: a reset of the whole part gives every credit back. -/
theorem State.noMoreCredits_hardReset (s : State) (u : StartUp) (causes : Port → Byte) :
    s.NoMoreCredits (s.hardReset u causes).refreshLed := fun p => by
  rw [State.port_refreshLed, State.port_hardReset]
  exact Nat.zero_le _

/-- R44, R149, R150: no frame but a SUBMIT's promises a credit. -/
theorem State.noMoreCredits_endChecked (s : State) (p : Port) (kind : TransactionKind) (more : List Byte) (check : Byte)
    (allowed : Bool) (e : Effect) (n : Nat) (he : e.credit = 0) :
    s.NoMoreCredits (s.endChecked p kind more check allowed e n) := by
  refine (s.leavesRequests_endFrame p _ _ n ?_).credits
  unfold checkedDecision
  split
  · rfl
  · split
    · rfl
    · exact he

theorem noMoreCredits_execDirectRead (p : Port) (a : LogicalAddress) (n : Nat) (s t : State)
    (h : execDirectRead p a n s = .next t) : s.NoMoreCredits t := by
  unfold execDirectRead at h
  dsimp only at h
  split at h
  · split at h
    · cases h; exact (s.leavesRequests_endFrame p _ _ n rfl).credits
    · cases h
      exact ((s.leavesRequests_attemptSuspend _).trans (State.leavesRequests_endFrame _ p _ _ n rfl)).credits
    · cases h
      exact ((s.leavesRequests_openStream p _).trans (State.leavesRequests_endFrame _ p _ _ n rfl)).credits
  · cases h; exact (s.leavesRequests_passFrame p _).credits

theorem noMoreCredits_execTransactionStart (start : TransactionStart) (s t : State)
    (h : execTransactionStart start s = .next t) : s.NoMoreCredits t := by
  unfold execTransactionStart at h
  dsimp only at h
  split at h
  · cases h; exact .refl s
  · split at h
    · cases h; exact s.noMoreCredits_modPort _ _ (Nat.le_refl _)
    · split at h
      · cases h; exact (s.leavesRequests_beginTransaction _ _ _ rfl).credits
      · split at h
        · cases h; exact (s.leavesRequests_beginTransaction _ _ _ rfl).credits
        · cases h; exact .refl s

theorem noMoreCredits_execDeselect (p : Port) (bytes : List Byte) (s t : State)
    (h : execDeselect p bytes s = .next t) : s.NoMoreCredits t := by
  unfold execDeselect at h
  split at h
  · cases h; exact s.noMoreCredits_modPort p _ (Nat.le_refl _)
  · next tr htr =>
    split at h
    · cases h; exact .refl s
    · next hb => cases h; exact (State.EventEffect.deselect p bytes tr htr (Bool.not_eq_true _ ▸ hb)).noMoreCredits

theorem noMoreCredits_execSelectHoldLimit (p : Port) (bytes : List Byte) (s t : State)
    (h : execSelectHoldLimit p bytes s = .next t) : s.NoMoreCredits t := by
  unfold execSelectHoldLimit at h
  split at h
  · cases h; exact .refl s
  · next tr htr =>
    split at h
    · cases h; exact .refl s
    · next hb =>
      cases h
      unfold State.holdLimit
      split
      · next ht => exact (State.EventEffect.holdLimit p bytes tr htr (Bool.not_eq_true _ ▸ hb) ht).noMoreCredits
      · exact (s.leavesRequests_takeBytes p tr bytes).credits

theorem noMoreCredits_execDeadlineExpiry (p : Port) (which : Timed) (s t : State)
    (h : execDeadlineExpiry p which s = .next t) : s.NoMoreCredits t := by
  unfold execDeadlineExpiry at h
  split at h
  · split at h
    · cases h; exact .refl s
    · split at h
      · cases h; exact (s.leavesRequests_markExpired p _ _).credits
      · cases h; exact .refl s
  · split at h
    · next cur b hc hb => exact State.noMoreCredits_of_ite h (.expire p b cur hc hb)
    · cases h; exact .refl s

/-- R45: only a SUBMIT's frame may give a port a further credit. -/
theorem noMoreCredits_exec (c : Instr) (s t : State) (hc : ∀ p f n, c ≠ .submit p f n) (h : exec c s = .next t) :
    s.NoMoreCredits t := by
  have hchecked := fun p kind more check allowed e n he => s.noMoreCredits_endChecked p kind more check allowed e n he
  cases c with
  | submit p f n => exact absurd rfl (hc p f n)
  | powerOnReset => cases h; exact s.noMoreCredits_hardReset _ _
  | lossOfPower => cases h; exact s.noMoreCredits_hardReset _ _
  | deviceReset =>
    change execDeviceReset s = _ at h
    unfold execDeviceReset at h
    split at h
    · cases h; exact .refl s
    · cases h; exact s.noMoreCredits_hardReset _ _
  | startUpBegin one zero =>
    change execStartUpBegin one zero s = _ at h
    unfold execStartUpBegin at h
    split at h <;> cases h <;> exact .refl s
  | transactionStart start => exact noMoreCredits_execTransactionStart start s t h
  | directRead p a n => exact noMoreCredits_execDirectRead p a n s t h
  | unknownOpener p b n =>
    change execUnknownOpener p b n s = _ at h
    unfold execUnknownOpener at h
    split at h
    · cases h; exact .refl s
    · cases h; exact (s.leavesRequests_endFrame p _ _ n rfl).credits
  | fetch p n =>
    cases h
    refine (s.leavesRequests_endFrame p _ _ n ?_).credits
    unfold fetchDecision
    split <;> rfl
  | readStatus p n => cases h; exact (s.leavesRequests_endFrame p _ _ n rfl).credits
  | readPeerStatus p b n =>
    cases h
    refine (s.leavesRequests_endFrame p _ _ n ?_).credits
    unfold peerStatusDecision
    split
    · split <;> rfl
    · rfl
  | writeEnable p check n => cases h; exact hchecked _ _ _ _ _ _ _ rfl
  | writeDisable p check n => cases h; exact hchecked _ _ _ _ _ _ _ rfl
  | clearEvents p set check n => cases h; exact hchecked _ _ _ _ _ _ _ rfl
  | setEventEnables p set check n => cases h; exact hchecked _ _ _ _ _ _ _ rfl
  | clearCauses p set check n => cases h; exact hchecked _ _ _ _ _ _ _ rfl
  | confirmBoot p check n => cases h; exact hchecked _ _ _ _ _ _ _ rfl
  | service p code check n => cases h; exact hchecked _ _ _ _ _ _ _ rfl
  | restart p check n => cases h; exact hchecked _ _ _ _ _ _ _ rfl
  | deselect p bytes => exact noMoreCredits_execDeselect p bytes s t h
  | selectHoldLimit p bytes => exact noMoreCredits_execSelectHoldLimit p bytes s t h
  | deadlineExpiry p which => exact noMoreCredits_execDeadlineExpiry p which s t h
  | loadComplete => exact State.noMoreCredits_of_ite h .load
  | presentation p => exact State.noMoreCredits_of_ite h (.present p)
  | resume b => exact State.noMoreCredits_of_ite h (.resume b)
  | pulseRelease p => exact State.noMoreCredits_of_ite h (.pulseRelease p)
  | bootTimerExpiry p => exact State.noMoreCredits_of_ite h (.bootTimerExpiry p)
  | watchdogExpiry p => exact State.noMoreCredits_of_ite h (.watchdogExpiry p)
  | configurationWriteBegin => exact State.noMoreCredits_of_ite h .beginWrite
  | watchdogHalf p => cases h; exact (s.leavesRequests_watchdogHalf p).credits
  | readGrant b =>
    change execReadGrant b s = _ at h
    unfold execReadGrant at h
    split at h
    · next p c hg => exact State.noMoreCredits_of_ite h (.grantRead b p c hg)
    · cases h; exact .refl s
  | writeGrant b =>
    change execWriteGrant b s = _ at h
    unfold execWriteGrant at h
    split at h
    · next p c hg =>
      split at h
      · cases h; exact .refl s
      · cases h; exact (s.noMoreCredits_grant b p c).trans (State.noMoreCredits_finish _)
    · cases h; exact .refl s
  | writeStart b =>
    change execWriteStart b s = _ at h
    unfold execWriteStart at h
    split at h
    · next ho => cases h; exact (State.EventEffect.startWrite b _ ho).noMoreCredits
    · cases h; exact .refl s
  | suspendComplete b =>
    change execSuspendComplete b s = _ at h
    unfold execSuspendComplete at h
    split at h
    · next hw => cases h; exact (State.EventEffect.suspendComplete b _ hw).noMoreCredits
    · cases h; exact .refl s
  | readComplete b =>
    change execReadComplete b s = _ at h
    unfold execReadComplete at h
    split at h
    · next ho => cases h; exact (State.EventEffect.readComplete b _ ho).noMoreCredits
    · cases h; exact .refl s
  | programComplete b =>
    change execProgramComplete b s = _ at h
    unfold execProgramComplete at h
    split at h
    · next hw => cases h; exact (State.EventEffect.programComplete _ _ _ _ _ _ hw).noMoreCredits
    · cases h; exact .refl s
  | sectorEraseComplete b =>
    change execSectorEraseComplete b s = _ at h
    unfold execSectorEraseComplete at h
    split at h
    · next hw => cases h; exact (State.EventEffect.eraseComplete _ _ _ _ _ hw (.inl rfl)).noMoreCredits
    · next hw => cases h; exact (State.EventEffect.eraseComplete _ _ _ _ _ hw (.inr rfl)).noMoreCredits
    · cases h; exact .refl s
  | configurationWriteComplete =>
    change execConfigurationWriteComplete s = _ at h
    unfold execConfigurationWriteComplete at h
    split at h
    · next hi => cases h; exact (State.EventEffect.completeWrite _ hi).noMoreCredits
    · cases h; exact .refl s

/-! ## The frame of a SUBMIT (R44) -/

/-- R44: a SUBMIT promises a credit only where fewer than 8 are in use. -/
theorem submitDecision_credit (x : PortState) (f : SubmitFrame) :
    (submitDecision x f).effect.credit = 0 ∨ x.creditsInUse + (submitDecision x f).effect.credit ≤ Config.credits := by
  simp only [submitDecision, submitOutcome]
  split
  · exact .inl rfl
  · split
    · exact .inl rfl
    · split
      · exact .inl rfl
      · split
        · exact .inl rfl
        · split
          · next hroom => exact .inr hroom
          · exact .inl rfl

/-- Credits within eight are kept where no port uses more. -/
theorem State.NoMoreCredits.within {s t : State} (h : s.NoMoreCredits t) (hs : s.creditsWithinEight) :
    t.creditsWithinEight := fun p => (h p).trans (hs p)

/-- A frame decided where there is room for its credit. -/
theorem State.creditsWithinEight_endFrame {s : State} (hs : s.creditsWithinEight) (p : Port) (frame : List Byte)
    (d : Decision) (n : Nat)
    (hd : d.effect.credit = 0 ∨ (s.port p).creditsInUse + d.effect.credit ≤ Config.credits) :
    (s.endFrame p frame d n).creditsWithinEight := by
  rcases hd with hd | hd
  · exact (s.leavesRequests_endFrame p frame d n hd).credits.within hs
  · unfold State.endFrame
    split
    · refine (State.leavesRequests_clockOut _ p n).credits.within fun q => ?_
      unfold State.decideFrame
      split
      · exact hs q
      · rw [State.takeFrame, State.port_modPort]
        split
        · rw [PortState.promised_of_decided _ _ d rfl rfl]
          exact hd
        · exact hs q
    · exact (s.leavesRequests_passFrame p _).credits.within hs

/-- Settles O54: a SUBMIT is ACCEPTED only where there is room, and nothing else gives a port a further credit. -/
theorem creditsStayWithinEight : Obligations.CreditsStayWithinEight := by
  intro s t hs hstep
  rcases step_answer s t hstep with rfl | ⟨c, rest, -, hexec⟩
  · exact hs
  · by_cases hc : ∃ p f n, c = .submit p f n
    · obtain ⟨p, f, n, rfl⟩ := hc
      change execSubmit p f n { s with pending := rest } = _ at hexec
      unfold execSubmit at hexec
      split at hexec
      · cases hexec
        exact State.creditsWithinEight_endFrame (s := { s with pending := rest }) hs p _ _ n (submitDecision_credit _ f)
      · cases hexec
        exact hs
    · have hkept := noMoreCredits_exec c _ t (fun p f n e => hc ⟨p, f, n, e⟩) hexec
      exact hkept.within (s := { s with pending := rest }) hs

end Sys2Proof.Machine
end

section
/-! PROOFS. Where requests stand after a flush and after a presentation. -/

namespace Sys2Proof.Machine

open Sys2Proof

/-! ## Operations that leave every request -/

theorem State.LeavesRequests.sound {s t : State} {u : StartUp} (h : s.LeavesRequests t) (hs : s.placing.Sound u) :
    t.placing.Sound u := h.placing ▸ hs

theorem State.LeavesRequests.lifted {s t : State} {u : StartUp} {p : Port} {current : Option (RequestKind × Bool)}
    (h : s.LeavesRequests t) (hs : s.placing.Lifted u p current) : t.placing.Lifted u p current := h.placing ▸ hs

/-- A change of a port that shows the same current request. -/
theorem State.sound_modPort {s : State} {u : StartUp} (h : s.placing.Sound u) (p : Port) (f : PortState → PortState)
    (hc : (f (s.port p)).current.map Current.shown = (s.port p).current.map Current.shown) :
    (s.modPort p f).placing.Sound u := by
  rw [s.placing_modPort, hc]
  exact (s.placing.set_standing p).symm ▸ h

/-- A port that stands nowhere shows another current request. -/
theorem State.lifted_modPort {s : State} {u : StartUp} {p : Port} {current : Option (RequestKind × Bool)}
    (h : s.placing.Lifted u p current) (f : PortState → PortState) :
    (s.modPort p f).placing.Lifted u p ((f (s.port p)).current.map Current.shown) := by
  rw [s.placing_modPort, h.standing]
  obtain ⟨g, hg, hset⟩ := h
  exact ⟨g, hg, by rw [hset, Placing.set_set]; rfl⟩

/-- A port that shows no current request stands nowhere. -/
theorem Placing.Sound.idle {u : StartUp} {g : Placing} (h : g.Sound u) {p : Port} (hc : (g.standing p).current = none) :
    g.standing p = .away none := by
  have hplaced := h.placed p
  generalize g.standing p = v at hc hplaced ⊢
  cases hplaced with
  | idle => rfl
  | atBank => cases hc
  | inWriter => cases hc

/-- A port with no current request stands nowhere. -/
theorem State.standing_of_idle {s : State} {u : StartUp} (h : s.placing.Sound u) {p : Port}
    (hc : (s.port p).current = none) : s.standing p = .away none :=
  h.idle (p := p) (congrArg (Option.map Current.shown) hc)

/-! ## A flush (R59) -/

/-- R16: whose an operation is after a flush. -/
theorem Owner.flush_eq_port (o : Owner) (p q : Port) : o.flush p = .port q ↔ o = .port q ∧ q ≠ p := by
  unfold Owner.flush
  split
  · next h => subst h; simp [eq_comm]
  · next h =>
    refine ⟨fun hq => ⟨hq, ?_⟩, fun hq => hq.1⟩
    rintro rfl
    exact h hq

/-- R16, R66: a port that is flushed leaves its bank, and no other does. -/
theorem Bank.placeOf_flush (k : Bank) (p q : Port) :
    (k.flush p).placeOf q = if q = p then .nowhere else k.placeOf q := by
  have hcandidate : (k.flush p).candidate q = if q = p then none else k.candidate q := Bank.candidate_setCandidate k p q none
  split
  · next h =>
    subst h
    rw [if_pos rfl] at hcandidate
    refine BankPlace.ext ?_ ?_ ?_
    · simp [Bank.placeOf, hcandidate, BankPlace.nowhere]
    · cases hr : k.readSlot <;> simp [Bank.placeOf, Bank.flush, BankPlace.nowhere, hr, Owner.flush_eq_port]
    · cases hw : k.writeSlot <;>
        simp [Bank.placeOf, Bank.flush, WriteSlot.flush, BankPlace.nowhere, hw, Owner.flush_eq_port]
  · next h =>
    rw [if_neg h] at hcandidate
    refine BankPlace.ext ?_ ?_ ?_
    · simp only [Bank.placeOf, hcandidate]
    · cases hr : k.readSlot <;> simp [Bank.placeOf, Bank.flush, hr, Owner.flush_eq_port, h]
    · cases hw : k.writeSlot <;> simp [Bank.placeOf, Bank.flush, WriteSlot.flush, hw, Owner.flush_eq_port, h]

/-- R59: the writer after a flush. -/
theorem State.writer_flush (s : State) (p : Port) :
    (s.flush p).writer = if p = s.admin then { s.writer with waiting := false, carried := false } else s.writer :=
  congrArg State.writer (s.flush_frame p)

theorem State.admin_flush (s : State) (p : Port) : (s.flush p).admin = s.admin :=
  (congrArg State.admin (s.flush_frame p)).trans rfl

/-- R59: a flushed port stands nowhere, and every other port stands where it stood. -/
theorem State.standing_flush (s : State) (p q : Port) :
    (s.flush p).standing q = if q = p then .away none else s.standing q := by
  have hbank : ∀ b, ((s.flush p).bank b).placeOf q = if q = p then .nowhere else (s.bank b).placeOf q := fun b => by
    rw [State.bank_flush]
    exact Bank.placeOf_flush _ p q
  have hstores : (s.flush p).storesFor q = if q = p then false else s.storesFor q := by
    rw [State.storesFor, State.storesFor, State.writer_flush, State.admin_flush]
    by_cases hp : p = s.admin
    · subst hp
      by_cases hq : q = s.admin <;> simp [hq]
    · by_cases hq : q = p <;> simp [hp, hq]
  split
  · next h =>
    subst h
    simp only [if_true] at hbank hstores
    refine Standing.ext ?_ (funext hbank) hstores
    simp only [State.standing, State.port_flush, if_true]
    rfl
  · next h =>
    simp only [if_neg h] at hbank hstores
    refine Standing.ext ?_ (funext hbank) hstores
    simp only [State.standing, State.port_flush, if_neg h]

theorem State.sound_flush {s : State} {u : StartUp} (h : s.placing.Sound u) (p : Port) : (s.flush p).placing.Sound u := by
  refine ⟨fun q => ?_, ?_, (congrArg State.startUp (s.flush_frame p)).trans h.startUp⟩
  · change ((s.flush p).standing q).Placed
    rw [s.standing_flush]
    split
    · exact .idle
    · exact h.placed q
  · change (s.flush p).writer.carried = true →
      (s.flush p).writer.snapshot.isSome = true ∧ (s.flush p).writer.waiting = false
    rw [s.writer_flush]
    split
    · exact nofun
    · exact h.carried

theorem State.sound_pulseStart {s : State} {u : StartUp} (h : s.placing.Sound u) (p : Port) (cause : Option Cause) :
    (s.pulseStart p cause).placing.Sound u :=
  State.sound_modPort ((State.leavesRequests_cutTransaction _ p).sound (State.sound_flush h p)) p _ rfl

theorem State.sound_enterFailed {s : State} {u : StartUp} (h : s.placing.Sound u) (p : Port) :
    (s.enterFailed p).placing.Sound u :=
  (State.leavesRequests_raise _ s.admin .peerFailed).sound
    (State.sound_modPort ((State.leavesRequests_cutTransaction _ p).sound (State.sound_flush h p)) p
      PortState.enterFailed rfl)

theorem State.sound_bootTimerExpiry {s : State} {u : StartUp} (h : s.placing.Sound u) (p : Port) :
    (s.bootTimerExpiry p).placing.Sound u := by
  unfold State.bootTimerExpiry
  split
  · exact State.sound_pulseStart
      ((State.leavesRequests_raise _ p .bootFallback).sound (State.sound_modPort h p _ rfl)) p _
  · dsimp only
    split
    · exact State.sound_pulseStart (State.sound_modPort h p _ rfl) p _
    · exact State.sound_enterFailed (State.sound_modPort h p _ rfl) p
  · exact h

theorem State.sound_serviceCode {s : State} {u : StartUp} (h : s.placing.Sound u) (p : Port) (code : Byte) :
    (s.serviceCode p code).placing.Sound u := by
  unfold State.serviceCode
  split
  · exact h
  · split
    · exact State.sound_modPort h p _ rfl
    · exact State.sound_pulseStart h p _

theorem State.sound_resetMaster {s : State} {u : StartUp} (h : s.placing.Sound u) (t : Port) :
    (s.resetMaster t).placing.Sound u := by
  unfold State.resetMaster
  split
  · exact State.sound_pulseStart (State.sound_modPort h t _ rfl) t _
  · exact State.sound_pulseStart h t _

/-! ## Presentation (R48, R49, R65) -/

/-- R48: a request made current at an idle port stands nowhere yet. -/
theorem State.lifted_madeCurrent {s : State} {u : StartUp} (h : s.placing.Sound u) {p : Port}
    (hc : (s.port p).current = none) (rest : List Queued) (cur : Current) :
    (s.madeCurrent p rest cur).placing.Lifted u p (some cur.shown) := by
  have hplacing := s.placing_modPort p fun x => { x with queue := rest, current := some cur }
  rw [State.standing_of_idle h hc] at hplacing
  exact ⟨s.placing, h, hplacing⟩

/-- R97: an admission of a verify chunk has the verify record. -/
def Admission.Recorded : Admission → Prop
  | .refused _ => True
  | .joins _ entry _ verify => entry.target.isVerify = true → verify.isSome = true

theorem State.recorded_admitRead (s : State) (p : Port) (r : Request) : (s.admitRead p r).Recorded := by
  unfold State.admitRead
  split
  · trivial
  · exact nofun

theorem State.recorded_admitProgram (s : State) (p : Port) (r : Request) : (s.admitProgram p r).Recorded := by
  unfold State.admitProgram
  split
  · trivial
  · dsimp only
    split
    · trivial
    · exact nofun

theorem State.recorded_admitEraseSector (s : State) (p : Port) (r : Request) : (s.admitEraseSector p r).Recorded := by
  unfold State.admitEraseSector
  split
  · trivial
  · dsimp only
    split
    · trivial
    · exact nofun

theorem State.recorded_admitEraseRegion (s : State) (p : Port) (r : Request) : (s.admitEraseRegion p r).Recorded := by
  unfold State.admitEraseRegion
  split
  · trivial
  · split
    · trivial
    · exact nofun

theorem State.recorded_admitVerify (s : State) (p : Port) (r : Request) : (s.admitVerify p r).Recorded := by
  unfold State.admitVerify
  split
  · trivial
  · exact fun _ => rfl

theorem State.recorded_admitArm (s : State) (p : Port) (r : Request) : (s.admitArm p r).Recorded := by
  unfold State.admitArm
  split
  · trivial
  · split
    · dsimp only
      split
      · trivial
      · exact fun _ => rfl
    · trivial

/-- R48, steps 3 and 4: an admission is refused, or joins a candidate set. -/
theorem State.sound_carryOut {s : State} {u : StartUp} {p : Port} {kind : RequestKind}
    (h : s.placing.Lifted u p (some (kind, false))) (hk : kind.isBankKind = true) (a : Admission) (ha : a.Recorded) :
    (s.carryOut p a).placing.Sound u := by
  unfold State.carryOut
  split
  · exact State.sound_complete h _ _ _
  · next b entry range verify =>
    have hlifted := State.lifted_modPort h fun x =>
      { x with current := x.current.map fun c => { c with range := range, verify := verify } }
    obtain ⟨cur, hcur, hshown⟩ := Option.map_eq_some_iff.1 (congrArg Standing.current h.standing)
    have hcurrent : ((s.port p).current.map fun c => { c with range := range, verify := verify }).map Current.shown
        = some (kind, verify.isSome) := by
      rw [hcur]
      exact congrArg (fun k => some (k, verify.isSome)) (congrArg Prod.fst hshown)
    rw [hcurrent] at hlifted
    exact State.sound_join hlifted hk b entry ha

/-- R33, R49: a request whose edit leaves every request is settled. -/
theorem State.sound_settleEdit {s : State} {u : StartUp} {p : Port} {current : Option (RequestKind × Bool)}
    (h : s.placing.Lifted u p current) (edited : Option State) (hedit : ∀ t, edited = some t → s.LeavesRequests t) :
    (s.settleEdit p edited).placing.Sound u := by
  unfold State.settleEdit
  split
  · exact State.sound_complete h _ _ _
  · exact State.sound_complete ((hedit _ rfl).lifted h) _ _ _

/-- R61: a FLUSH_PORT is settled: the flush of another port leaves the administrator port's request. -/
theorem State.sound_settleFlush {s : State} {u : StartUp} (h : s.placing.Sound u) (hc : (s.port s.admin).current = none)
    (rest : List Queued) (cur : Current) (r : Request) :
    ((s.madeCurrent s.admin rest cur).settleEdit s.admin
      ((s.madeCurrent s.admin rest cur).flushPort r)).placing.Sound u := by
  rw [s.flushPort_madeCurrent rest cur r]
  cases hf : s.flushPort r with
  | none => exact State.sound_complete (State.lifted_madeCurrent h hc rest cur) _ _ _
  | some t =>
    unfold State.flushPort at hf
    split at hf
    · cases hf
    · next q _ =>
      split at hf
      · cases hf
      · next hne =>
        obtain rfl := Option.some.inj hf
        refine State.sound_complete (State.lifted_madeCurrent (State.sound_flush h q) ?_ rest cur) _ _ _
        rw [State.port_flush, if_neg fun e => hne e.symm]
        exact hc

/-- R135: a STORE_CONFIG of the administrator port stands at the writer. -/
theorem State.sound_presentStore {s : State} {u : StartUp} (h : s.placing.Sound u)
    (hc : (s.port s.admin).current = none) (rest : List Queued) (cur : Current)
    (hk : cur.request.kind = .storeConfig) : (s.madeCurrent s.admin rest cur).presentStore.placing.Sound u := by
  have hlifted := State.lifted_madeCurrent h hc rest cur
  have hfree : (s.writer.waiting || s.writer.carried) = false := by
    have hstores : s.storesFor s.admin = false := congrArg Standing.stores (State.standing_of_idle h hc)
    simpa [State.storesFor] using hstores
  obtain ⟨-, hcarried⟩ := (Bool.or_eq_false_iff ..).1 hfree
  refine ⟨fun q => ?_, fun hcarry => ?_, h.startUp⟩
  case refine_2 => exact absurd (hcarried.symm.trans hcarry) nofun
  by_cases hq : q = s.admin
  · subst hq
    have hstanding : (s.madeCurrent s.admin rest cur).presentStore.standing s.admin
        = ⟨some (.storeConfig, cur.verify.isSome), fun _ => .nowhere, true⟩ := by
      have haway := hlifted.standing
      have hbank := congrArg Standing.bank haway
      have hcurrent := (congrArg Standing.current haway).trans (congrArg (fun k => some (k, cur.verify.isSome)) hk)
      refine Standing.ext hcurrent hbank ?_
      · simp [State.standing, State.storesFor, State.presentStore, State.madeCurrent]
    change ((s.madeCurrent s.admin rest cur).presentStore.standing s.admin).Placed
    rw [hstanding]
    exact .inWriter _
  · have hstanding : (s.madeCurrent s.admin rest cur).presentStore.standing q = s.standing q := by
      have hport : (s.madeCurrent s.admin rest cur).port q = s.port q := by rw [State.port_madeCurrent, if_neg hq]
      refine Standing.ext ?_ rfl ?_
      · exact congrArg (fun x : PortState => x.current.map Current.shown) hport
      · simp [State.standing, State.storesFor, State.presentStore, State.madeCurrent, hq]
    change ((s.madeCurrent s.admin rest cur).presentStore.standing q).Placed
    rw [hstanding]
    exact h.placed q

/-- R48, step 2: only the administrator port's requests of its own kinds are examined. -/
theorem State.admin_of_allowed {s : State} {p : Port} {r : Request} (ha : s.notAdmin p r = false)
    (hk : r.kind.adminOnly = true) : p = s.admin := by
  by_contra hp
  exact Bool.false_ne_true (ha.symm.trans ((s.notAdmin_iff p r).2 ⟨hp, .inl ((RequestKind.adminOnly_iff _).1 hk)⟩))

/-- R48: an allowed request is settled, or stands in its place. -/
theorem State.sound_examineKind {s : State} {u : StartUp} (h : s.placing.Sound u) {p : Port} {r : Request}
    (hc : (s.port p).current = none) (ha : s.notAdmin p r = false) (q : Queued) (hq : q.request = r)
    (rest : List Queued) : ((s.madeCurrent p rest q.toCurrent).examineKind p r).placing.Sound u := by
  have hlifted : (s.madeCurrent p rest q.toCurrent).placing.Lifted u p (some (r.kind, false)) :=
    hq ▸ State.lifted_madeCurrent h hc rest q.toCurrent
  have hedit := fun (edited : Option State)
    (he : ∀ t, edited = some t → (s.madeCurrent p rest q.toCurrent).LeavesRequests t) =>
    State.sound_settleEdit hlifted edited he
  have hjoins := fun (hk : r.kind.isBankKind = true) a => State.sound_carryOut hlifted hk a
  unfold State.examineKind
  split
  case h_1 hk => exact hjoins (hk ▸ rfl) _ (State.recorded_admitRead _ p r)
  case h_2 hk => exact hjoins (hk ▸ rfl) _ (State.recorded_admitProgram _ p r)
  case h_3 hk => exact hjoins (hk ▸ rfl) _ (State.recorded_admitEraseSector _ p r)
  case h_4 hk => exact hjoins (hk ▸ rfl) _ (State.recorded_admitEraseRegion _ p r)
  case h_5 hk => exact hjoins (hk ▸ rfl) _ (State.recorded_admitVerify _ p r)
  case h_6 hk => exact hjoins (hk ▸ rfl) _ (State.recorded_admitArm _ p r)
  case h_7 => exact hedit _ fun t ht => State.leavesRequests_edit (.inl ht)
  case h_8 => exact hedit _ fun t ht => State.leavesRequests_edit (.inr (.inl ht))
  case h_9 => exact hedit _ fun t ht => State.leavesRequests_edit (.inr (.inr (.inl ht)))
  case h_10 => exact hedit _ fun t ht => State.leavesRequests_edit (.inr (.inr (.inr (.inl ht))))
  case h_11 => exact hedit _ fun t ht => State.leavesRequests_edit (.inr (.inr (.inr (.inr (.inl ht)))))
  case h_12 => exact hedit _ fun t ht => State.leavesRequests_edit (.inr (.inr (.inr (.inr (.inr (.inl ht))))))
  case h_13 => exact hedit _ fun t ht => State.leavesRequests_edit (.inr (.inr (.inr (.inr (.inr (.inr ht))))))
  case h_14 =>
    unfold State.presentReset
    split
    · exact State.sound_complete hlifted _ _ _
    · exact State.sound_resetMaster (State.sound_complete hlifted _ _ _) _
  case h_15 hk =>
    obtain rfl := State.admin_of_allowed ha (hk ▸ rfl)
    exact State.sound_settleFlush h hc rest _ r
  case h_16 hk =>
    obtain rfl := State.admin_of_allowed ha (hk ▸ rfl)
    exact State.sound_presentStore h hc rest _ ((congrArg Request.kind hq).trans hk)

theorem State.sound_present {s : State} {u : StartUp} (h : s.placing.Sound u) (p : Port) :
    (s.present p).placing.Sound u := by
  unfold State.present
  split
  · next q rest hc hqueue =>
    have hlifted := State.lifted_madeCurrent h hc rest q.toCurrent
    unfold State.presentQueued
    dsimp only
    split
    · exact State.sound_complete hlifted _ _ _
    · split
      · exact State.sound_complete hlifted _ _ _
      · next hallowed => exact State.sound_examineKind h hc (Bool.not_eq_true _ ▸ hallowed) q rfl rest
  · exact h

end Sys2Proof.Machine
end

section
/-! PROOFS. Where requests stand after the events of the banks and of the writer, the end of an event, and the deselect. -/

namespace Sys2Proof.Machine

open Sys2Proof

/-! ## Grants (R68 to R71) -/

/-- A request with a verify record. -/
theorem State.verifyOf_of_lifted {s : State} {u : StartUp} {p : Port} {kind : RequestKind}
    (h : s.placing.Lifted u p (some (kind, true))) : ∃ v, s.verifyOf p = some v := by
  obtain ⟨cur, hcur, hshown⟩ := Option.map_eq_some_iff.1 (congrArg Standing.current h.standing)
  obtain ⟨v, hv⟩ := Option.isSome_iff_exists.1 (congrArg Prod.snd hshown)
  exact ⟨v, by simp only [State.verifyOf, hcur, hv]⟩

/-- R66, R69: a granted entry leaves its set; the pointer and the deadline move no request. -/
theorem State.lifted_takeGrant {s : State} {u : StartUp} (h : s.placing.Sound u) (b : BankId) (p : Port) (c : Candidate)
    (hc : (s.bank b).candidate p = some c) :
    ∃ kind record, kind.isBankKind = true ∧ (c.target.isVerify = true → record = true)
      ∧ (s.takeGrant b p).placing.Lifted u p (some (kind, record)) := by
  obtain ⟨kind, record, hk, -, hv, hlifted⟩ := State.lifted_setCandidate h b p c hc
  refine ⟨kind, record, hk, hv, (State.leavesRequests_stopDeadline _ p).lifted ?_⟩
  have hpointer : s.modBank b (fun k => { k.setCandidate p none with pointer := p + 1 })
      = (s.modBank b fun k => k.setCandidate p none).modBank b fun k => { k with pointer := p + 1 } := by
    simp only [State.modBank, State.bank_setBank_self, State.setBank_setBank]
  rw [hpointer]
  exact (State.leavesRequests_modBank _ b _ fun _ => rfl).lifted hlifted

/-- R69: the slots of the bank after a grant is taken. -/
theorem State.bank_takeGrant (s : State) (b : BankId) (p : Port) :
    (s.takeGrant b p).bank b = { (s.bank b).setCandidate p none with pointer := p + 1 } :=
  s.bank_modBank_self b fun k => { k.setCandidate p none with pointer := p + 1 }

/-- R70, R71: a grant completes its request or puts it in a slot. -/
theorem State.sound_grant {s : State} {u : StartUp} (h : s.placing.Sound u) (b : BankId) (p : Port) (c : Candidate)
    (hg : (s.bank b).nextGrant = some (p, c)) : (s.grant b p c).placing.Sound u := by
  obtain ⟨hc, hmay⟩ := Bank.nextGrant_sound _ _ _ hg
  obtain ⟨kind, record, hk, hv, hlifted⟩ := State.lifted_takeGrant h b p c hc
  have hread : c.target.isRead = true → ((s.takeGrant b p).bank b).readSlot = none := fun ht => by
    rw [Bank.mayGrant, if_pos ht, Bool.and_eq_true, Option.isNone_iff_eq_none] at hmay
    rw [State.bank_takeGrant]
    exact hmay.1
  have hwrite : c.target.isRead = false → ∀ target chunk,
      ((s.takeGrant b p).grantWrite b p target chunk).placing.Sound u := fun ht target chunk => by
    have hnone : ((s.takeGrant b p).bank b).writeSlot = .none := by
      rw [State.bank_takeGrant]
      rw [Bank.mayGrant, if_neg (by simp [ht])] at hmay
      change (s.bank b).writeSlot = .none
      cases hw : (s.bank b).writeSlot with
      | none => rfl
      | busy st op => rw [hw] at hmay; cases hmay
    unfold State.grantWrite
    split
    · exact State.sound_complete hlifted _ _ _
    · exact State.sound_enterWriteSlot hlifted hk b .starting target chunk hnone
  unfold State.grant
  dsimp only
  split
  · next first length ht =>
    exact State.sound_enterReadSlot hlifted hk b .read first length _ (hread (by rw [ht]; rfl)) nofun
  · next sector ht =>
    obtain rfl := hv (by rw [ht]; rfl)
    obtain ⟨v, hrecord⟩ := State.verifyOf_of_lifted hlifted
    simp only [State.grantVerify, hrecord]
    split
    · exact State.sound_complete hlifted _ _ _
    · exact State.sound_enterReadSlot hlifted hk b .verifyChunk _ _ _ (hread (by rw [ht]; rfl)) fun _ => rfl
  · next page start data ht => exact hwrite (by rw [ht]; rfl) _ _
  · next sector ht => exact hwrite (by rw [ht]; rfl) _ _

/-- R52: an entry that expires completes. -/
theorem State.sound_expireCandidate {s : State} {u : StartUp} (h : s.placing.Sound u) (p : Port) (b : BankId)
    (hb : s.waitsUngranted p = some b) : (s.expireCandidate p b).placing.Sound u := by
  unfold State.waitsUngranted at hb
  have hwaits := List.find?_some hb
  obtain ⟨c, hc, -⟩ := (Option.any_eq_true _ _).1 hwaits
  obtain ⟨kind, record, -, -, -, hlifted⟩ := State.lifted_setCandidate h b p c hc
  exact State.sound_complete hlifted _ _ _

/-! ## The ends of operations (R7, R10, R11) -/

/-- R106: an ARM_TRIAL completes, armed or not. -/
theorem State.sound_decideArm {s : State} {u : StartUp} {p : Port} {current : Option (RequestKind × Bool)}
    (h : s.placing.Lifted u p current) (v : VerifyRecord) (a : Arming) (digest : Word) :
    (s.decideArm p v a digest).placing.Sound u := by
  unfold State.decideArm
  split
  · exact State.sound_complete h _ _ _
  · split
    · exact State.sound_complete h _ _ _
    · split
      · exact State.sound_complete h _ _ _
      · exact State.sound_complete
          ((s.leavesRequests_modPort a.target (fun x => { x with trial := some a.slot }) rfl (Nat.le_refl _)).lifted h) _ _ _

/-- R98: after a verify chunk the next one waits, or the request completes. -/
theorem State.sound_returnChunk {s : State} {u : StartUp} {p : Port} {kind : RequestKind}
    (h : s.placing.Lifted u p (some (kind, true))) (hk : kind.isBankKind = true) (b : BankId) (v w : VerifyRecord)
    (hw : s.verifyOf p = some w) (register : Word) : (s.returnChunk b p v register).placing.Sound u := by
  unfold State.returnChunk
  split
  · exact State.sound_join ((s.leavesRequests_setVerify p _ w hw).lifted h) hk b _ fun _ => rfl
  · split
    · exact State.sound_complete h _ _ _
    · exact State.sound_decideArm h v _ _

/-- R17: the end of an orphan's read moves no request. -/
theorem Bank.placeOf_endRead_orphan (k : Bank) (op : ReadOperation) (hr : k.readSlot = some op)
    (ho : op.owner = .orphan) (q : Port) : (k.endRead op).placeOf q = k.placeOf q := by
  simp [Bank.placeOf, Bank.endRead, Bank.candidate, hr, ho]

/-- R7: the end of a read. -/
theorem State.sound_readComplete {s : State} {u : StartUp} (h : s.placing.Sound u) (b : BankId) (op : ReadOperation)
    (hr : (s.bank b).readSlot = some op) : (s.readComplete b op).placing.Sound u := by
  unfold State.readComplete
  dsimp only
  split
  · next ho =>
    exact (s.leavesRequests_modBank b (fun k => k.endRead op) (Bank.placeOf_endRead_orphan _ op hr ho)).sound h
  · next p ho =>
    obtain ⟨kind, record, hk, -, hv, hlifted⟩ := State.lifted_endRead h b p op hr ho
    have hdrawn : ∀ n, State.placing { (s.modBank b fun k => k.endRead op) with freeCount := n }
        = (s.modBank b fun k => k.endRead op).placing := fun _ => rfl
    split
    · exact State.sound_complete (hdrawn _ ▸ hlifted) _ _ _
    · next hchunk =>
      obtain rfl := hv hchunk
      obtain ⟨v, hrecord⟩ := State.verifyOf_of_lifted hlifted
      split
      · next hnone => exact absurd (hrecord.symm.trans hnone) nofun
      · next w hw => exact State.sound_returnChunk (hdrawn _ ▸ hlifted) hk b w w hw _

/-- R17: the end of an orphan's write moves no request. -/
theorem Bank.placeOf_endWrite_orphan (k : Bank) (st : WriteState) (op : WriteOperation) (hw : k.writeSlot = .busy st op)
    (ho : op.owner = .orphan) (n : Nat) (q : Port) :
    ({ k with writeSlot := .none, suspendCount := n } : Bank).placeOf q = k.placeOf q := by
  simp [Bank.placeOf, Bank.candidate, hw, ho]

/-- R10: the end of a program. -/
theorem State.sound_programComplete {s : State} {u : StartUp} (h : s.placing.Sound u) (b : BankId) (owner : Owner)
    (page start : Nat) (data : List Byte) (chunk : Option Nat)
    (hw : (s.bank b).writeSlot = .busy .programming ⟨owner, .program page start data, chunk⟩) :
    (s.programComplete b owner page start data).placing.Sound u := by
  unfold State.programComplete
  dsimp only
  split
  · exact (s.leavesRequests_modBank b (fun k => { k with writeSlot := .none })
      (Bank.placeOf_endWrite_orphan _ _ _ hw rfl _)).sound h
  · next p =>
    obtain ⟨kind, record, -, -, hlifted⟩ := State.lifted_endWrite h b p _ _ hw rfl (s.bank b).suspendCount
    exact State.sound_complete (s := { (s.modBank b fun k => { k with writeSlot := .none }) with
      array := s.array.program page start data }) hlifted _ _ _

/-- R79: after a sector the next one waits, or the request completes. -/
theorem State.sound_nextErase {s : State} {u : StartUp} {p : Port} {kind : RequestKind} {record : Bool}
    (h : s.placing.Lifted u p (some (kind, record))) (hk : kind.isBankKind = true) (b : BankId) (chunk : Option Nat) :
    (s.nextErase b p chunk).placing.Sound u := by
  unfold State.nextErase
  split
  · split
    · exact State.sound_join h hk b _ nofun
    · exact State.sound_complete h _ _ _
  · exact State.sound_complete h _ _ _

/-- R11: the end of a sector erase. -/
theorem State.sound_eraseComplete {s : State} {u : StartUp} (h : s.placing.Sound u) (b : BankId) (st : WriteState)
    (owner : Owner) (sector : Nat) (chunk : Option Nat)
    (hw : (s.bank b).writeSlot = .busy st ⟨owner, .sectorErase sector, chunk⟩) :
    (s.eraseComplete b owner sector chunk).placing.Sound u := by
  unfold State.eraseComplete
  dsimp only
  split
  · exact (s.leavesRequests_modBank b (fun k => { k with writeSlot := .none, suspendCount := 0 })
      (Bank.placeOf_endWrite_orphan _ _ _ hw rfl _)).sound h
  · next p =>
    obtain ⟨kind, record, hk, -, hlifted⟩ := State.lifted_endWrite h b p _ _ hw rfl 0
    exact State.sound_nextErase (s := { (s.modBank b fun k => { k with writeSlot := .none, suspendCount := 0 }) with
      array := s.array.erase (sector * Config.sectorBytes) Config.sectorBytes }) hlifted hk b chunk

/-! ## The writer (R133 to R137) -/

/-- R133, R134: a waiting STORE_CONFIG is carried by the write that begins. -/
theorem State.sound_beginWrite {s : State} {u : StartUp} (h : s.placing.Sound u) (hdue : s.writeDue = true) :
    s.beginWrite.placing.Sound u := by
  have hcarried : s.writer.carried = false := by
    rw [State.writeDue, Bool.and_eq_true] at hdue
    refine Bool.eq_false_iff.2 fun hc => ?_
    have hwriting : s.writer.snapshot.isSome = true := (h.carried hc).1
    rw [Option.isNone_iff_eq_none.1 hdue.1] at hwriting
    cases hwriting
  have hstanding : ∀ q, s.beginWrite.standing q = s.standing q := fun q => by
    refine Standing.ext rfl rfl ?_
    simp only [State.standing, State.storesFor, State.beginWrite, hcarried, Bool.or_false, Bool.false_or]
  refine ⟨fun q => ?_, fun _ => ⟨rfl, rfl⟩, h.startUp⟩
  exact (congrArg Standing.Placed (hstanding q)).mpr (h.placed q)

/-- R137: the block and the writer as a write completes. -/
def State.writeEnded (s : State) (image : ConfigImage) : State :=
  { s with
    block := some image.withCheck
    writer := { s.writer with snapshot := none, carried := false } }

/-- R137: a write that completes, as its end, an event and the completion of a carried STORE_CONFIG. -/
theorem State.completeWrite_eq (s : State) (image : ConfigImage) :
    s.completeWrite image
      = if s.writer.carried = true then ((s.writeEnded image).raise s.admin .storeDone).completeBare s.admin .done
        else (s.writeEnded image).raise s.admin .storeDone := rfl

/-- R137: a write that carries nothing ends with every request in its place. -/
theorem State.sound_writeEnded {s : State} {u : StartUp} (h : s.placing.Sound u) (image : ConfigImage)
    (hc : s.writer.carried = false) : (s.writeEnded image).placing.Sound u := by
  have hstanding : ∀ q, (s.writeEnded image).standing q = s.standing q := fun q => by
    refine Standing.ext rfl rfl ?_
    simp only [State.standing, State.storesFor, State.writeEnded, hc]
  refine ⟨fun q => ?_, nofun, h.startUp⟩
  exact (congrArg Standing.Placed (hstanding q)).mpr (h.placed q)

/-- R133: a carried STORE_CONFIG is the administrator port's current request, and it stands nowhere else. -/
theorem State.standing_of_carried {s : State} {u : StartUp} (h : s.placing.Sound u) (hc : s.writer.carried = true) :
    ∃ current, s.standing s.admin = ⟨current, fun _ => .nowhere, true⟩ := by
  have hplaced : (s.standing s.admin).Placed := h.placed s.admin
  have hstores : (s.standing s.admin).stores = true := by simp [State.standing, State.storesFor, hc]
  generalize s.standing s.admin = v at hplaced hstores
  cases hplaced with
  | inWriter record => exact ⟨_, rfl⟩
  | idle => cases hstores
  | atBank => cases hstores

/-- R137: a write that ends takes a carried STORE_CONFIG from the writer. -/
theorem State.lifted_writeEnded {s : State} {u : StartUp} (h : s.placing.Sound u) (image : ConfigImage)
    (hc : s.writer.carried = true) : ∃ current, (s.writeEnded image).placing.Lifted u s.admin current := by
  obtain ⟨current, hadmin⟩ := State.standing_of_carried h hc
  have hwaiting : s.writer.waiting = false := (h.carried hc).2
  have hstanding : (s.writeEnded image).standing = Function.update s.standing s.admin (.away current) := by
    funext q
    by_cases hq : q = s.admin
    · subst hq
      have hcurrent := congrArg Standing.current hadmin
      have hbank := congrArg Standing.bank hadmin
      rw [Function.update_self]
      refine Standing.ext hcurrent hbank ?_
      simp [State.standing, State.storesFor, State.writeEnded, Standing.away, hwaiting]
    · rw [Function.update_of_ne hq]
      refine Standing.ext rfl rfl ?_
      have hother : (q == s.admin) = false := beq_eq_false_iff_ne.2 hq
      change (q == s.admin && _) = (q == s.admin && _)
      rw [hother, Bool.false_and, Bool.false_and]
  refine ⟨current, { s.placing with writing := false, carried := false }, ⟨h.placed, nofun, h.startUp⟩, ?_⟩
  rw [State.placing, hstanding]
  rfl

/-- R137: the end of a write of the block. -/
theorem State.sound_completeWrite {s : State} {u : StartUp} (h : s.placing.Sound u) (image : ConfigImage) :
    (s.completeWrite image).placing.Sound u := by
  have hraise := (s.writeEnded image).leavesRequests_raise s.admin .storeDone
  rw [State.completeWrite_eq]
  split
  · next hc =>
    obtain ⟨current, hlifted⟩ := State.lifted_writeEnded h image hc
    exact State.sound_complete (hraise.lifted hlifted) _ _ _
  · next hc => exact hraise.sound (State.sound_writeEnded h image (Bool.not_eq_true _ ▸ hc))

/-! ## The end of an event and the deselect -/

theorem State.sound_internalStep {s t : State} {u : StartUp} (h : s.placing.Sound u) (hi : s.internalStep = some t) :
    t.placing.Sound u := by
  rcases State.internalStep_cases hi with ⟨p, -, rfl⟩ | ⟨hw, rfl⟩ | ⟨b, hb⟩
  · exact State.sound_present h p
  · exact State.sound_beginWrite h hw
  · rcases hb with ⟨op, ho, rfl⟩ | ⟨-, p, c, hg, rfl⟩ | ⟨-, -, -, rfl⟩ | ⟨-, -, -, -, rfl⟩
    · exact (s.leavesRequests_startWrite b op ho).sound h
    · exact State.sound_grant h b p c hg
    · exact (s.leavesRequests_requestSuspend b).sound h
    · exact (s.leavesRequests_resume b).sound h

theorem State.sound_finish {s : State} {u : StartUp} (h : s.placing.Sound u) : s.finish.placing.Sound u :=
  State.finish_induction (fun t => t.placing.Sound u) (fun _ _ ht hi => State.sound_internalStep ht hi)
    (fun t ht => t.leavesRequests_refreshLed.sound ht) s h

/-- R151: the effects of a deselect leave every request in its place, or flush its port. -/
theorem State.sound_takeEffect {s : State} {u : StartUp} (h : s.placing.Sound u) (p : Port) (silenced : Bool)
    (answered : Nat) (e : Effect) : (s.takeEffect p silenced answered e).placing.Sound u := by
  have hport := fun f hf => State.sound_modPort h p f hf
  cases e with
  | nothing | stream => exact h
  | confirmBoot => exact (s.leavesRequests_confirm p).sound h
  | service code => exact State.sound_serviceCode h p code
  | restart => exact State.sound_pulseStart h p _
  | accept r => exact hport _ rfl
  | setLatch => exact hport _ rfl
  | clearLatch => exact hport _ rfl
  | clearEvents set => exact hport _ rfl
  | setEnables set => exact hport _ rfl
  | clearCauses set => exact hport _ rfl
  | fetched m =>
    cases m with
    | none => exact h
    | some n =>
      simp only [State.takeEffect]
      split
      · exact hport _ rfl
      · exact h

theorem State.sound_deselect {s : State} {u : StartUp} (h : s.placing.Sound u) (p : Port) :
    (s.deselect p).placing.Sound u := by
  unfold State.deselect
  split
  · exact h
  · next tr _ =>
    have hended : (s.modPort p fun x => { x with selected := false, transaction := none }).placing.Sound u :=
      State.sound_modPort h p _ rfl
    unfold State.endTransaction
    dsimp only
    split
    · split
      · exact (State.leavesRequests_raise _ p _).sound hended
      · exact State.sound_takeEffect ((State.leavesRequests_closeStream _ p).sound hended) p _ _ _
    · exact hended

/-- R142, R144: the load leaves every request in its place and the part READY. -/
theorem State.sound_loadTables {s : State} {u : StartUp} (h : s.placing.Sound u) : s.loadTables.placing.Sound .ready := by
  have hpulses : ∀ (ps : List Port) (t : State), t.placing.Sound .ready →
      (ps.foldl (fun s p => s.pulseStart p none) t).placing.Sound .ready := by
    intro ps
    induction ps with
    | nil => exact fun t ht => ht
    | cons p rest ih => exact fun t ht => ih _ (State.sound_pulseStart ht p none)
  have hready : ∀ t : State, t.placing.Sound u → (State.placing { t with startUp := .ready }).Sound .ready :=
    fun t ht => ⟨ht.placed, ht.carried, rfl⟩
  unfold State.loadTables
  dsimp only
  split
  · exact hpulses allPorts _ (hready _ ((s.leavesRequests_fillTables _).sound h))
  · exact hpulses allPorts _ (hready _ (((s.leavesRequests_fillTables _).trans
      (State.leavesRequests_raise _ s.admin .configDefaulted)).sound h))

end Sys2Proof.Machine
end

section
/-! PROOFS. Every request stands in its one place after every command: while the part is READY no operation misplaces one, and a
part that is not READY is blank. -/

namespace Sys2Proof.Machine

open Sys2Proof

/-! ## A part that is not READY (R140) -/

/-- R140: the banks, the writer and the ports hold their reset values. -/
structure State.Blank (s : State) : Prop where
  bank : ∀ b, s.bank b = Bank.reset
  writer : s.writer = Writer.reset
  port : ∀ p, (s.port p).blank

/-- A blank port has neither a request nor a stream, and no timer of its own runs. -/
theorem PortState.blank_fields {x : PortState} (h : x.blank) :
    x.current = none ∧ x.queue = [] ∧ x.stream = none ∧ x.pulse = .stopped ∧ x.bootTimer = .stopped
      ∧ x.watchdog = .stopped := by
  obtain ⟨hreset, -⟩ := h
  exact ⟨congrArg PortState.current hreset, congrArg PortState.queue hreset, congrArg PortState.stream hreset,
    congrArg PortState.pulse hreset, congrArg PortState.bootTimer hreset, congrArg PortState.watchdog hreset⟩

/-- R145, R155: a transaction of a blank part is not live, and so takes no frame. -/
theorem State.Blank.not_live {s : State} (h : s.Blank) {p : Port} {tr : Transaction}
    (ht : (s.port p).transaction = some tr) : tr.isLive = false ∧ tr.isFraming = false := by
  have hlive : (s.port p).hasLive = false := (h.port p).2
  rw [PortState.hasLive, ht, Option.any_some] at hlive
  exact ⟨hlive, by rw [Transaction.isFraming, hlive, Bool.false_and]⟩

/-- A blank part has no request anywhere. -/
theorem State.Blank.sound {s : State} (h : s.Blank) : s.placing.Sound s.startUp := by
  have hidle : ∀ p, s.standing p = .away none := fun p => by
    obtain ⟨hcurrent, -⟩ := PortState.blank_fields (h.port p)
    refine Standing.ext (congrArg (Option.map Current.shown) hcurrent) (funext fun b => ?_) ?_
    · simp only [State.standing, h.bank]
      exact BankPlace.eq_nowhere _ ((Bank.placesOf_eq _ p).symm.trans (Bank.placesOf_reset p))
    · simp [State.standing, State.storesFor, h.writer, Writer.reset, Standing.away]
  refine ⟨fun p => (congrArg Standing.Placed (hidle p)).mpr .idle, fun hc => ?_, rfl⟩
  rw [State.placing, h.writer] at hc
  cases hc

/-- A port changed on the wire alone, with no live transaction, leaves a blank part blank. -/
theorem State.Blank.modPort {s : State} (h : s.Blank) (p : Port) (f : PortState → PortState)
    (hsame : ({ f (s.port p) with selected := false, transaction := none, sdo := [] } : PortState)
      = { s.port p with selected := false, transaction := none, sdo := [] })
    (hlive : (f (s.port p)).hasLive = false) : (s.modPort p f).Blank := by
  refine ⟨h.bank, h.writer, fun q => ?_⟩
  rw [State.port_modPort]
  split
  · have hcauses : (f (s.port p)).causes = (s.port p).causes := by
      injection hsame
    refine ⟨?_, hlive⟩
    rw [hsame, hcauses]
    exact (h.port p).1
  · exact h.port q

/-- R155: bytes clocked leave a blank part blank. -/
theorem State.Blank.clockOut {s : State} (h : s.Blank) (p : Port) (n : Nat) : (s.clockOut p n).Blank := by
  cases ht : (s.port p).transaction with
  | none => rw [s.clockOut_of_none p n ht]; exact h
  | some tr =>
    obtain ⟨hlive, -⟩ := h.not_live ht
    have hanswering : tr.answering = none := by
      rw [Transaction.isLive, ← Bool.not_or, Bool.not_eq_false'] at hlive
      simp only [Transaction.answering, hlive, Bool.true_or, if_true]
    rw [s.clockOut_silent p n tr ht hanswering]
    exact h.modPort p (fun x => { x with
      transaction := some { tr with taken := tr.taken + n }
      sdo := x.sdo ++ List.replicate n Config.filler }) rfl hlive

theorem State.Blank.passFrame {s : State} (h : s.Blank) (p : Port) (n : Nat) : (s.passFrame p n).Blank := by
  unfold State.passFrame
  split
  · exact h
  · exact h.clockOut p n

/-- R155: a blank part takes no frame. -/
theorem State.Blank.takesFrame {s : State} (h : s.Blank) (p : Port) (frame : List Byte) :
    (s.port p).takesFrame frame = false := by
  unfold PortState.takesFrame
  cases ht : (s.port p).transaction with
  | none => rfl
  | some tr => rw [Option.any_some, (h.not_live ht).2, Bool.false_and]

theorem State.Blank.endFrame {s : State} (h : s.Blank) (p : Port) (frame : List Byte) (d : Decision) (n : Nat) :
    (s.endFrame p frame d n).Blank := by
  rw [State.endFrame, h.takesFrame p frame]
  exact h.passFrame p _

theorem State.Blank.takeBytes {s : State} (h : s.Blank) {p : Port} {tr : Transaction}
    (ht : (s.port p).transaction = some tr) (bytes : List Byte) : (s.takeBytes p tr bytes).Blank := by
  rw [State.takeBytes, (h.not_live ht).2]
  exact h.clockOut p _

/-- R155: the deselect of a transaction that is not live only ends it. -/
theorem State.Blank.deselect {s : State} (h : s.Blank) (p : Port) :
    (s.deselect p).Blank ∧ (s.deselect p).startUp = s.startUp := by
  unfold State.deselect
  split
  · exact ⟨h, rfl⟩
  · next tr ht =>
    have hended : (s.modPort p fun x => { x with selected := false, transaction := none }).Blank := h.modPort p _ rfl rfl
    rw [State.endTransaction, (h.not_live ht).1]
    exact ⟨hended, rfl⟩

/-- R153: a blank part has nothing to cut and no stream to close. -/
theorem State.Blank.holdLimit {s : State} (h : s.Blank) (p : Port) : (s.cutTransaction p).closeStream p = s := by
  obtain ⟨-, -, hstream, -⟩ := PortState.blank_fields (h.port p)
  rw [s.cutTransaction_of_not_live p (h.port p).2, s.closeStream_of_none p hstream]

theorem State.Blank.refreshLed {s : State} (h : s.Blank) : s.refreshLed.Blank :=
  ⟨fun b => (s.bank_refreshLed b).trans (h.bank b), s.writer_refreshLed.trans h.writer,
    fun p => (s.port_refreshLed p).symm ▸ h.port p⟩

/-- Nothing is due in a blank part. -/
theorem State.Blank.finish {s : State} (h : s.Blank) : s.finish.Blank ∧ s.finish.startUp = s.startUp := by
  have hdue : s.nothingDue := by
    refine ⟨fun p _ => ?_, fun _ => ?_, fun b => ?_⟩
    · obtain ⟨-, hqueue, -⟩ := PortState.blank_fields (h.port p)
      exact hqueue
    · rw [h.writer]
      exact ⟨rfl, rfl⟩
    · rw [h.bank b]
      exact Bank.reset_nothingDue
  rw [s.finish_of_none (s.internalStep_eq_none.2 hdue)]
  exact ⟨h.refreshLed, s.startUp_refreshLed⟩

/-- R140: a reset of the whole part leaves it blank. -/
theorem State.blank_hardReset (s : State) (u : StartUp) (causes : Port → Byte) :
    (s.hardReset u causes).refreshLed.Blank :=
  State.Blank.refreshLed ⟨s.bank_hardReset u causes, rfl, fun p => by rw [State.port_hardReset]; exact ⟨rfl, rfl⟩⟩

/-- R140, R141: in a blank part no event of a request, a bank, a boot record or the writer happens. -/
theorem State.Blank.event {s u : State} {c : Instr} (h : s.Blank) (he : s.EventEffect c u) :
    s.startUp = .loading ∧ u = s.loadTables ∨ u.Blank ∧ u.startUp = s.startUp := by
  have hgrant : ∀ b p c, (s.bank b).nextGrant ≠ some (p, c) := fun b p c hg => by
    rw [h.bank b] at hg
    have hcandidate := (Bank.nextGrant_sound _ _ _ hg).1
    rw [Bank.candidate_reset] at hcandidate
    cases hcandidate
  have hslot : ∀ b st op, (s.bank b).writeSlot ≠ .busy st op := fun b st op hw => by
    rw [h.bank b] at hw
    cases hw
  have hfields := fun p => PortState.blank_fields (h.port p)
  cases he with
  | load hl => exact .inl ⟨hl, rfl⟩
  | deselect p bytes tr ht _ =>
    have htaken := h.takeBytes ht bytes
    obtain ⟨hblank, hstartUp⟩ := htaken.deselect p
    exact .inr ⟨hblank, hstartUp.trans (s.takeBytes_onWire p tr bytes).startUp⟩
  | holdLimit p bytes tr ht _ _ =>
    have htaken := h.takeBytes ht bytes
    rw [htaken.holdLimit p]
    exact .inr ⟨htaken, (s.takeBytes_onWire p tr bytes).startUp⟩
  | present p hp =>
    obtain ⟨-, hqueue, -⟩ := hfields p
    simp [PortState.presentable, hqueue] at hp
  | expire p b cur hc _ _ =>
    obtain ⟨hcurrent, -⟩ := hfields p
    exact absurd (hcurrent.symm.trans hc) nofun
  | grantRead b p c hg _ => exact absurd hg (hgrant b p c)
  | grantWrite b p c hg _ => exact absurd hg (hgrant b p c)
  | startWrite b op ho => exact absurd ((Bank.startDue_eq_some _ _).1 ho).1 (hslot b _ _)
  | suspendComplete b op hw => exact absurd hw (hslot b _ _)
  | resume b hr =>
    rw [h.bank b] at hr
    cases hr
  | readComplete b op hr =>
    rw [h.bank b] at hr
    cases hr
  | programComplete b _ _ _ _ _ hw => exact absurd hw (hslot b _ _)
  | eraseComplete b _ _ _ _ hw _ => exact absurd hw (hslot b _ _)
  | pulseRelease p hp =>
    obtain ⟨-, -, -, hpulse, -⟩ := hfields p
    rw [hpulse] at hp
    cases hp
  | bootTimerExpiry p hp =>
    obtain ⟨-, -, -, -, htimer, -⟩ := hfields p
    rw [htimer] at hp
    cases hp
  | watchdogExpiry p hp =>
    obtain ⟨-, -, -, -, -, hwatchdog⟩ := hfields p
    rw [hwatchdog] at hp
    cases hp
  | beginWrite hw =>
    rw [State.writeDue, h.writer] at hw
    cases hw
  | completeWrite image hi =>
    rw [h.writer] at hi
    cases hi

/-! ## Every command -/

/-- A READY part with every request in its place, or a blank part that is not READY. -/
def State.InPlace (s : State) : Prop := s.placing.Sound .ready ∨ s.Blank ∧ s.startUp ≠ .ready

/-- The two invariants of the model together. -/
theorem State.inPlace_iff (s : State) : s.InPlace ↔ s.startUpBlank ∧ s.requestsPlaced := by
  constructor
  · rintro (hsound | ⟨hblank, hready⟩)
    · have hready : s.startUp = .ready := hsound.startUp
      exact ⟨fun hne => absurd hready hne, s.requestsPlaced_iff.2 (hready ▸ hsound)⟩
    · exact ⟨fun _ => ⟨hblank.bank, hblank.writer, hblank.port⟩, s.requestsPlaced_iff.2 hblank.sound⟩
  · rintro ⟨hblank, hplaced⟩
    by_cases hready : s.startUp = .ready
    · exact .inl (hready ▸ s.requestsPlaced_iff.1 hplaced)
    · obtain ⟨hbank, hwriter, hport⟩ := hblank hready
      exact .inr ⟨⟨hbank, hwriter, hport⟩, hready⟩

/-- Every event of a READY part leaves every request in its place. -/
theorem State.EventEffect.sound {s u : State} {c : Instr} (h : s.EventEffect c u) (hs : s.placing.Sound .ready) :
    u.placing.Sound .ready := by
  cases h with
  | load hl => exact absurd (hl.symm.trans hs.startUp) nofun
  | deselect p bytes tr _ _ => exact State.sound_deselect ((s.leavesRequests_takeBytes p tr bytes).sound hs) p
  | holdLimit p bytes tr _ _ _ =>
    exact (((s.leavesRequests_takeBytes p tr bytes).trans (State.leavesRequests_cutTransaction _ p)).trans
      (State.leavesRequests_closeStream _ p)).sound hs
  | present p _ => exact State.sound_present hs p
  | expire p b _ _ hb _ => exact State.sound_expireCandidate hs p b hb
  | grantRead b p c hg _ => exact State.sound_grant hs b p c hg
  | grantWrite b p c hg _ => exact State.sound_grant hs b p c hg
  | startWrite b op ho => exact (s.leavesRequests_startWrite b op ho).sound hs
  | suspendComplete b op hw => exact (s.leavesRequests_suspendComplete b op hw).sound hs
  | resume b _ => exact (s.leavesRequests_resume b).sound hs
  | readComplete b op hr => exact State.sound_readComplete hs b op hr
  | programComplete b owner page start data chunk hw =>
    exact State.sound_programComplete hs b owner page start data chunk hw
  | eraseComplete b st owner sector chunk hw _ => exact State.sound_eraseComplete hs b st owner sector chunk hw
  | pulseRelease p _ => exact (s.leavesRequests_pulseRelease p).sound hs
  | bootTimerExpiry p _ => exact State.sound_bootTimerExpiry hs p
  | watchdogExpiry p _ => exact State.sound_pulseStart hs p _
  | beginWrite hw => exact State.sound_beginWrite hs hw
  | completeWrite image _ => exact State.sound_completeWrite hs image

theorem State.OnWire.sound {p : Port} {s t : State} {u : StartUp} (h : s.OnWire p t) (hs : s.placing.Sound u) :
    t.placing.Sound u := h.placing ▸ hs

/-- Every answer of a READY part leaves every request in its place, or is a reset of the whole part. -/
theorem State.Answer.inPlace_of_sound {s t : State} {c : Instr} (h : s.Answer c t) (hs : s.placing.Sound .ready) :
    t.InPlace := by
  have hwire : ∀ {p u}, State.OnWire p s u → u.InPlace := fun ho => .inl (ho.sound hs)
  cases h with
  | noEvent => exact .inl hs
  | powerOnReset | deviceReset | lossOfPower =>
    exact .inr ⟨s.blank_hardReset _ _, by rw [State.startUp_refreshLed]; exact nofun⟩
  | startUpBegin one zero hu => exact absurd (hu.symm.trans hs.startUp) nofun
  | selectUnpowered start _ _ => exact hwire (s.select_onWire start.port true)
  | deselectIdle p bytes _ => exact hwire (s.select_onWire p false)
  | beginsIgnored start _ _ _ => exact hwire (s.beginTransaction_onWire start.port _ _)
  | beginsFraming start _ _ _ _ => exact hwire (s.beginTransaction_onWire start.port _ _)
  | frame _ p bytes d n _ => exact hwire (s.endFrame_onWire p bytes d n)
  | notReady p a n b _ _ =>
    exact .inl ((State.endFrame_onWire _ p _ _ n).sound ((s.leavesRequests_attemptSuspend b).sound hs))
  | go p a n stream _ _ =>
    exact .inl ((State.endFrame_onWire _ p _ _ n).sound ((s.leavesRequests_openStream p stream).sound hs))
  | pass p a n _ => exact hwire (s.passFrame_onWire p _)
  | untimed p bytes tr _ _ _ => exact hwire (s.takeBytes_onWire p tr bytes)
  | markExpired p place q _ _ => exact .inl ((s.leavesRequests_markExpired p place q).sound hs)
  | watchdogHalf p => exact .inl ((s.leavesRequests_watchdogHalf p).sound hs)
  | event _ u he => exact .inl (State.sound_finish (he.sound hs))

/-- R155: a part that has power and is not READY ignores every transaction. -/
theorem State.ignoresTransactions_of_not_ready {s : State} (hready : s.startUp ≠ .ready) (hu : s.startUp ≠ .unpowered)
    (p : Port) : s.ignoresTransactions p = true := by
  rw [State.ignoresTransactions]
  cases h : s.startUp with
  | ready => exact absurd h hready
  | unpowered => exact absurd h hu
  | resetTaken => rfl
  | loading => rfl

/-- Every answer of a blank part leaves it blank, or ends its start-up with no request anywhere. -/
theorem State.Answer.inPlace_of_blank {s t : State} {c : Instr} (h : s.Answer c t) (hs : s.Blank)
    (hready : s.startUp ≠ .ready) : t.InPlace := by
  have hblank : ∀ {u : State}, u.Blank → u.startUp = s.startUp → u.InPlace := fun hu he =>
    .inr ⟨hu, fun e => hready (he.symm.trans e)⟩
  have hlive := fun p => (hs.port p).2
  cases h with
  | noEvent => exact hblank hs rfl
  | powerOnReset | deviceReset | lossOfPower =>
    exact .inr ⟨s.blank_hardReset _ _, by rw [State.startUp_refreshLed]; exact nofun⟩
  | startUpBegin one zero _ => exact .inr ⟨⟨hs.bank, hs.writer, hs.port⟩, nofun⟩
  | selectUnpowered start _ _ => exact hblank (hs.modPort start.port _ rfl (hlive start.port)) rfl
  | deselectIdle p bytes _ => exact hblank (hs.modPort p _ rfl (hlive p)) rfl
  | beginsIgnored start _ _ _ => exact hblank (hs.modPort start.port _ rfl rfl) rfl
  | beginsFraming start _ hu hi _ =>
    exact absurd (hi.symm.trans (State.ignoresTransactions_of_not_ready hready hu start.port)) nofun
  | frame _ p bytes d n _ => exact hblank (hs.endFrame p bytes d n) (s.endFrame_onWire p bytes d n).startUp
  | notReady p a n b hf _ => exact absurd (hf.symm.trans (hs.takesFrame p _)) nofun
  | go p a n stream hf _ => exact absurd (hf.symm.trans (hs.takesFrame p _)) nofun
  | pass p a n _ => exact hblank (hs.passFrame p _) (s.passFrame_onWire p _).startUp
  | untimed p bytes tr ht _ _ => exact hblank (hs.takeBytes ht bytes) (s.takeBytes_onWire p tr bytes).startUp
  | markExpired p place q hq _ =>
    obtain ⟨-, hqueue, -⟩ := PortState.blank_fields (hs.port p)
    rw [hqueue] at hq
    cases hq
  | watchdogHalf p =>
    obtain ⟨-, -, -, -, -, hwatchdog⟩ := PortState.blank_fields (hs.port p)
    have hsame : s.watchdogHalf p = s := by simp only [State.watchdogHalf, hwatchdog]
    exact hsame.symm ▸ hblank hs rfl
  | event _ u he =>
    rcases hs.event he with ⟨-, rfl⟩ | ⟨hu, hstartUp⟩
    · exact .inl (State.sound_finish (State.sound_loadTables hs.sound))
    · obtain ⟨hfinished, hkept⟩ := hu.finish
      exact hblank hfinished (hkept.trans hstartUp)

/-- Settles O58: every answer leaves every request of a READY part in its place and any other part blank. -/
theorem everyRequestStandsInOnePlace : Obligations.EveryRequestStandsInOnePlace := by
  intro s t hblank hplaced hstep
  rcases step_answer s t hstep with rfl | ⟨c, rest, -, hexec⟩
  · exact ⟨hblank, hplaced⟩
  · have hanswer := exec_answer c _ t hexec
    refine t.inPlace_iff.1 ?_
    have hinPlace : State.InPlace { s with pending := rest } :=
      (State.inPlace_iff { s with pending := rest }).2 ⟨hblank, hplaced⟩
    rcases hinPlace with hsound | ⟨hb, hready⟩
    · exact hanswer.inPlace_of_sound hsound
    · exact hanswer.inPlace_of_blank hb hready

end Sys2Proof.Machine
end

section
/-! PROOFS. Arbitration at a bank: the search from the pointer, the grant of a read or of a verify chunk, and the end of a
verify chunk. -/

namespace Sys2Proof.Machine

open Sys2Proof

/-! ## The search from the pointer (R67, R68) -/

/-- Table 4-3: the write slots beside which a read may be granted. -/
theorem WriteSlot.permitsRead_iff (w : WriteSlot) :
    w.permitsRead = true ↔ w = .none ∨ ∃ op, w = .busy .suspended op := by
  cases w with
  | none => simp [WriteSlot.permitsRead]
  | busy st op => cases st <;> simp [WriteSlot.permitsRead]

/-- Table 4-3: the write slot beside which a write may be granted. -/
theorem WriteSlot.isNone_iff (w : WriteSlot) : w.isNone = true ↔ w = .none := by
  cases w <;> simp [WriteSlot.isNone]

/-- R67, Table 4-3: when an entry may be granted, by its class. -/
theorem Bank.mayGrant_iff (k : Bank) (c : Candidate) :
    k.mayGrant c = true ↔
      (c.target.isRead = true ∧ k.readSlot = none
          ∧ (k.writeSlot = .none ∨ ∃ op, k.writeSlot = .busy .suspended op)
        ∨ c.target.isRead = false ∧ k.writeSlot = .none) := by
  rw [← WriteSlot.permitsRead_iff, ← WriteSlot.isNone_iff, Bank.mayGrant]
  cases c.target.isRead <;> simp

/-- R68: what a visit of a port grants. -/
theorem Bank.grantable_eq_some_iff (k : Bank) (q p : Port) (c : Candidate) :
    k.grantable q = some (p, c) ↔ q = p ∧ k.candidate q = some c ∧ k.mayGrant c = true := by
  unfold Bank.grantable
  cases k.candidate q with
  | none => simp
  | some c' =>
    dsimp only
    split
    · next hm =>
      simp only [Option.some.injEq, Prod.mk.injEq]
      exact ⟨fun ⟨hq, hc⟩ => ⟨hq, hc, hc ▸ hm⟩, fun ⟨hq, hc, _⟩ => ⟨hq, hc⟩⟩
    · next hm => exact ⟨nofun, fun ⟨_, hc, hm'⟩ => absurd (Option.some.inj hc ▸ hm') hm⟩

/-- R68: a search visits the ports by rising distance from the pointer. -/
theorem Bank.searchOrder_pairwise (k : Bank) :
    k.searchOrder.Pairwise fun p q => (p - k.pointer).val < (q - k.pointer).val := by
  have h : ∀ r : Port, [r, r + 1, r + 2, r + 3].Pairwise fun p q => (p - r).val < (q - r).val := by decide
  exact h k.pointer

/-- R68: no entry that may be granted is nearer to the pointer than the one a search grants. -/
theorem Bank.nextGrant_nearest (k : Bank) (p q : Port) (c c' : Candidate) (h : k.nextGrant = some (p, c))
    (hc : k.candidate q = some c') (hm : k.mayGrant c' = true) : (p - k.pointer).val ≤ (q - k.pointer).val := by
  obtain ⟨before, r, after, horder, hr, hbefore⟩ := List.findSome?_eq_some_iff.1 h
  obtain ⟨rfl, -⟩ := (k.grantable_eq_some_iff r p c).1 hr
  have hq : q ∈ before ++ r :: after := horder ▸ k.mem_searchOrder q
  rcases List.mem_append.1 hq with hq | hq
  · have hpassed := hbefore q hq
    rw [(k.grantable_eq_some_iff q q c').2 ⟨rfl, hc, hm⟩] at hpassed
    cases hpassed
  · rcases List.mem_cons.1 hq with rfl | hq
    · exact Nat.le_refl _
    · have hsorted := horder ▸ k.searchOrder_pairwise
      exact Nat.le_of_lt (List.rel_of_pairwise_cons (List.pairwise_append.1 hsorted).2.1 hq)

/-- Settles O38: two entries that both come first are one, because ports at one distance from the pointer are. -/
theorem grantSearchTakesTheFirstInOrder : Obligations.GrantSearchTakesTheFirstInOrder := by
  refine ⟨Bank.mayGrant_iff, fun k p c => ⟨fun h => ?_, fun ⟨hc, hm, hfirst⟩ => ?_⟩⟩
  · obtain ⟨hc, hm⟩ := k.nextGrant_sound p c h
    exact ⟨hc, hm, fun q c' => k.nextGrant_nearest p q c c' h⟩
  · cases hg : k.nextGrant with
    | none => exact absurd hm (Bool.eq_false_iff.1 (k.nextGrant_eq_none_iff.1 hg p c hc))
    | some g =>
      obtain ⟨q, c'⟩ := g
      obtain ⟨hc', hm'⟩ := k.nextGrant_sound q c' hg
      have hdistance : q - k.pointer = p - k.pointer :=
        Fin.ext (Nat.le_antisymm (k.nextGrant_nearest q p c' c hg hc hm) (hfirst q c' hc' hm'))
      obtain rfl := sub_left_injective hdistance
      rw [Option.some.inj (hc'.symm.trans hc)]

/-! ## The grant of a read (R69, R70, R98, R100, R101) -/

/-- READ_GRANT, where the search grants a read candidate. -/
theorem exec_readGrant (b : BankId) (s : State) (p : Port) (c : Candidate) (h : (s.bank b).nextGrant = some (p, c))
    (hread : c.target.isRead = true) : exec (.readGrant b) s = .next (s.grant b p c).finish := by
  simp only [exec, execReadGrant, h, hread, if_true]

/-- R100: when a SUSPENDED erase touches a range. -/
theorem Bank.suspendedEraseIn_iff (k : Bank) (range : SectorRange) :
    k.suspendedEraseIn range = true ↔ ∃ owner taken chunk,
      k.writeSlot = .busy .suspended ⟨owner, .sectorErase taken, chunk⟩
        ∧ range.first ≤ taken ∧ taken < range.first + range.count := by
  cases hw : k.writeSlot with
  | none => simp [Bank.suspendedEraseIn, hw]
  | busy st op =>
    obtain ⟨owner, target, chunk⟩ := op
    cases st <;> cases target <;> simp [Bank.suspendedEraseIn, hw, SectorRange.contains]

/-- R100: a grant leaves the write slot, and any SUSPENDED erase in it. -/
theorem State.suspendedEraseIn_takeGrant (s : State) (b : BankId) (p : Port) (range : SectorRange) :
    ((s.takeGrant b p).bank b).suspendedEraseIn range = (s.bank b).suspendedEraseIn range := by
  rw [State.bank_takeGrant]
  rfl

section

variable (s : State) (b : BankId) (p : Port) (cur : Current) (h : (s.port p).current = some cur)
include h

/-- R69, R70: a grant whose operation enters the read slot. -/
theorem State.enterReadSlot_takeGrant (op : ReadOperation) (digest : Option Word) :
    (s.takeGrant b p).enterReadSlot b op digest
      = (s.setPort p { s.port p with current := some { cur with timer := .stopped } }).setBank b
          { (s.bank b).setCandidate p none with pointer := p + 1, readSlot := some op, digest := digest } := by
  rw [s.takeGrant_eq b p cur h, State.enterReadSlot, State.modBank, State.bank_setBank_self, State.setBank_setBank]

/-- R69, R70: a grant that ends its request at once. -/
theorem State.completeBare_takeGrant (st : Status) :
    (s.takeGrant b p).completeBare p st
      = (s.setBank b { (s.bank b).setCandidate p none with pointer := p + 1 }).finished p cur.request st false [] := by
  have hport : (s.takeGrant b p).port p = { s.port p with current := some { cur with timer := .stopped } } := by
    rw [s.takeGrant_eq b p cur h, State.port_setBank, State.port_setPort_self]
  rw [State.completeBare, State.complete_of_current _ p { cur with timer := .stopped } _ _ _ (by rw [hport]), hport,
    s.takeGrant_eq b p cur h]
  exact State.setPort_setPort (s.setBank b _) p _ _

/-- A grant leaves the verify record of its request. -/
theorem State.verifyOf_takeGrant : (s.takeGrant b p).verifyOf p = cur.verify := by
  rw [State.verifyOf, s.takeGrant_eq b p cur h, State.port_setBank, State.port_setPort_self]

/-- R70, R101: a verify that is marked, or whose range a SUSPENDED erase touches, ends DISTURBED at its grant. -/
theorem State.grantVerify_of_disturbed (sector : Nat) (v : VerifyRecord) (hv : cur.verify = some v)
    (hd : v.disturbed = true ∨ (s.bank b).suspendedEraseIn v.range = true) :
    (s.takeGrant b p).grantVerify b p sector = (s.takeGrant b p).completeBare p .disturbed := by
  simp only [State.grantVerify, s.verifyOf_takeGrant b p cur h, hv, State.suspendedEraseIn_takeGrant]
  exact if_pos (by rwa [Bool.or_eq_true])

/-- R70, R98: any other verify enters the read slot with its running value in the accumulator. -/
theorem State.grantVerify_of_undisturbed (sector : Nat) (v : VerifyRecord) (hv : cur.verify = some v)
    (hmark : v.disturbed = false) (herase : (s.bank b).suspendedEraseIn v.range = false) :
    (s.takeGrant b p).grantVerify b p sector
      = (s.takeGrant b p).enterReadSlot b ⟨.port p, .verifyChunk, sector * 4096, 4096⟩ (some v.running) := by
  simp only [State.grantVerify, s.verifyOf_takeGrant b p cur h, hv, State.suspendedEraseIn_takeGrant, hmark, herase,
    Bool.or_self, Bool.false_eq_true, if_false, Config.sectorBytes]

end

/-- Settles O39: the grant of a READ, and of a verify chunk by its mark and the SUSPENDED erase beside it. -/
theorem readGrantFillsTheReadSlot : Obligations.ReadGrantFillsTheReadSlot := by
  intro b s p c cur k hgrant hcur hk
  subst hk
  refine ⟨fun first length hc => ?_, fun sector v hc hv => ?_⟩
  · rw [exec_readGrant b s p c hgrant (by rw [hc]; rfl)]
    simp only [State.grant, hc, s.enterReadSlot_takeGrant b p cur hcur, State.bank_takeGrant]
  · have hexec : exec (.readGrant b) s = .next ((s.takeGrant b p).grantVerify b p sector).finish := by
      rw [exec_readGrant b s p c hgrant (by rw [hc]; rfl), State.grant, hc]
    rw [hexec]
    refine ⟨fun hd => ?_, fun hmark herase => ?_⟩
    · rw [s.grantVerify_of_disturbed b p cur hcur sector v hv (hd.imp_right (Bank.suspendedEraseIn_iff _ _).2),
        s.completeBare_takeGrant b p cur hcur]
    · have hclear : (s.bank b).suspendedEraseIn v.range = false := by
        rw [Bool.eq_false_iff, ne_eq, Bank.suspendedEraseIn_iff]
        rintro ⟨owner, taken, chunk, hw, hlow, hhigh⟩
        have := herase owner taken chunk hw
        omega
      rw [s.grantVerify_of_undisturbed b p cur hcur sector v hv hmark hclear, s.enterReadSlot_takeGrant b p cur hcur]

/-! ## The end of a verify chunk (R65, R96 to R98, R168) -/

/-- R168: a digest, as numbers. -/
theorem wordBytes_eq (w : Word) :
    wordBytes w = [BitVec.ofNat 8 (w.toNat / 16777216), BitVec.ofNat 8 (w.toNat / 65536),
      BitVec.ofNat 8 (w.toNat / 256), BitVec.ofNat 8 w.toNat] := by
  rw [wordBytes, setWidth_ushiftRight_eq_ofNat, setWidth_ushiftRight_eq_ofNat, setWidth_ushiftRight_eq_ofNat,
    setWidth_eq_ofNat]
  rfl

/-- R65, R98: while chunks remain the request rejoins for the next one. -/
theorem State.returnChunk_of_remaining (s : State) (b : BankId) (p : Port) (cur : Current) (v : VerifyRecord)
    (register : Word) (k : Bank) (hk : s.bank b = k) (hcur : (s.port p).current = some cur)
    (h : v.next + 1 < v.range.count) :
    s.returnChunk b p v register
      = (s.setPort p { s.port p with
            current := some { cur with verify := some { v with next := v.next + 1, running := register } } }).setBank b
          (k.setCandidate p (some ⟨.verifyChunk (v.range.first + (v.next + 1)), some (v.next + 1), true⟩)) := by
  rw [State.returnChunk, if_pos h, ← hk]
  simp only [State.setVerify, State.join, State.modPort, State.modBank, hcur, Option.map_some, State.bank_setPort]

/-- R96, R98, R168: after its last chunk a VERIFY completes with the bytes of the inverted register. -/
theorem State.returnChunk_of_last (s : State) (b : BankId) (p : Port) (cur : Current) (v : VerifyRecord)
    (register : Word) (hcur : (s.port p).current = some cur) (h : v.range.count ≤ v.next + 1) (harm : v.arm = none) :
    s.returnChunk b p v register
      = s.finished p cur.request .done false
          [BitVec.ofNat 8 ((~~~register).toNat / 16777216), BitVec.ofNat 8 ((~~~register).toNat / 65536),
            BitVec.ofNat 8 ((~~~register).toNat / 256), BitVec.ofNat 8 (~~~register).toNat] := by
  rw [State.returnChunk, if_neg (Nat.not_lt.2 h), ← wordBytes_eq]
  simp only [harm]
  exact s.complete_of_current p cur _ _ _ hcur

/-- R7, R98: the end of a verify chunk empties the slot and the accumulator and passes the bytes through the register. -/
theorem State.readComplete_of_verifyChunk (s : State) (b : BankId) (p : Port) (first length : Nat) (cur : Current)
    (v : VerifyRecord) (loaded : Word) (hdigest : (s.bank b).digest = some loaded)
    (hcur : (s.port p).current = some cur) (hv : cur.verify = some v) :
    s.readComplete b ⟨.port p, .verifyChunk, first, length⟩
      = State.returnChunk
          { s.setBank b { s.bank b with readSlot := none, digest := none } with
            freeCount := (s.sample (List.range' first length) s.freeCount).2 }
          b p v (crc32Bytes loaded (s.sample (List.range' first length) s.freeCount).1) := by
  have hend : (s.bank b).endRead ⟨.port p, .verifyChunk, first, length⟩
      = { s.bank b with readSlot := none, digest := none } := by
    simp [Bank.endRead]
  have hrecord : ∀ n, State.verifyOf
      { s.setBank b { s.bank b with readSlot := none, digest := none } with freeCount := n } p = some v := fun n => by
    change s.verifyOf p = some v
    simp only [State.verifyOf, hcur, hv]
  simp only [State.readComplete, State.modBank, hend, hrecord, hdigest, Option.getD_some]

/-- Settles O43: the end of the chunk's read, and then the return for the next chunk or the digest of the last. -/
theorem verifyChunkReturnsOrCompletes : Obligations.VerifyChunkReturnsOrCompletes := by
  intro b s p first length cur v loaded register k hslot hdigest hcur hv hregister hk
  subst hregister
  have hexec : exec (.readComplete b) s
      = .next (s.readComplete b ⟨.port p, .verifyChunk, first, length⟩).finish := by
    simp only [exec, execReadComplete, hslot]
  rw [hexec, s.readComplete_of_verifyChunk b p first length cur v loaded hdigest hcur hv, ← hk]
  refine ⟨fun hnext => ?_, fun hlast harm => ?_⟩
  · rw [State.returnChunk_of_remaining _ b p cur v _ k (by exact s.bank_setBank_self b k) (by exact hcur) hnext]
    exact congrArg (fun u : State => Host.Outcome.next (State.finish { u with freeCount := _ }))
      (State.setBank_setBank (s.setPort p _) b k _)
  · rw [State.returnChunk_of_last _ b p cur v _ (by exact hcur) hlast harm]
    rfl

end Sys2Proof.Machine
end

section
/-! PROOFS. Direct reads: the attempt at address completion, the bytes of an open stream, and its close at the deselect and
at the select-hold limit. -/

namespace Sys2Proof.Machine

open Sys2Proof

/-! ## The bytes of an open stream (R2, R89) -/

/-- R2: the bytes read depend on the array and the write slots alone. -/
theorem State.sample_congr {s u : State} (harray : u.array = s.array)
    (hslot : ∀ b, (u.bank b).writeSlot = (s.bank b).writeSlot) (as : List Nat) (n : Nat) :
    u.sample as n = s.sample as n := by
  have hunder : ∀ a, u.underErase a = s.underErase a := fun a => by
    simp only [State.underErase, Bank.sectorUnderErase, hslot]
  induction as generalizing n with
  | nil => rfl
  | cons a rest ih => simp only [State.sample, hunder, harray, ih]

/-- R145, R147: a transaction that is neither ignored nor cut nor silenced still sends what was decided. -/
theorem Transaction.answering_of_heard (t : Transaction) (hi : t.ignored = false) (hc : t.cut = false)
    (hq : t.silenced = false) : t.answering = t.decision := by
  simp [Transaction.answering, hi, hc, hq]

/-- R89: n bytes clocked in a transaction whose stream is open, whole: `head` is what was left of its answer, and the
stream's bytes follow it. -/
theorem State.clockOut_of_stream (s : State) (p : Port) (n : Nat) (t : Transaction) (d : Decision) (st : Stream)
    (head : List Byte) (ht : (s.port p).transaction = some t) (hd : t.answering = some d) (he : d.effect = .stream)
    (hst : (s.port p).stream = some st) (hhead : head = (d.answer.drop (t.taken - t.frame.length)).take n) :
    s.clockOut p n
      = { s with freeCount := (s.sample (st.nextAddresses (n - head.length)) s.freeCount).2 }.setPort p { s.port p with
          transaction := some { t with taken := t.taken + n }
          stream := some (st.advance (n - head.length))
          sdo := (s.port p).sdo ++ (head ++ (s.sample (st.nextAddresses (n - head.length)) s.freeCount).1) } := by
  have hlength : (head ++ (s.sample (st.addresses (n - head.length)) s.freeCount).1).length = n := by
    have hle : head.length ≤ n := hhead ▸ List.length_take_le _ _
    rw [List.length_append, s.sample_length, Stream.addresses, List.length_map, List.length_range]
    omega
  simp only [State.clockOut, ht, hd, ← hhead, he, hst, State.sendStream, State.send, State.modPort_modPort, hlength]
  rfl

/-! ## The close of a stream (R92, R93) -/

/-- R92: the deselect of a live transaction decided GO closes its stream and takes no other effect. -/
theorem State.deselect_of_stream (s : State) (p : Port) (t : Transaction) (d : Decision) (st : Stream)
    (ht : (s.port p).transaction = some t) (hlive : t.isLive = true) (hd : t.decision = some d)
    (he : d.effect = .stream) (hst : (s.port p).stream = some st) :
    s.deselect p
      = (s.setPort p { s.port p with selected := false, transaction := none, stream := none }).setBank st.bank
          { s.bank st.bank with openStreams := (s.bank st.bank).openStreams - 1 } := by
  simp only [State.deselect, ht, State.endTransaction, hlive, if_true, hd, he, State.takeEffect, State.modPort]
  rw [State.closeStream_of_open _ p st (by rw [State.port_setPort_self]; exact hst)]
  simp only [State.port_setPort_self, State.setPort_setPort, State.bank_setPort]

/-- R92, R93: the limit of a timed transaction, live with a stream open, cuts it, closes the stream and sets FRAME_ABORT;
`clocked` is the transaction after the last bytes. -/
theorem State.holdLimit_of_stream (s : State) (p : Port) (t clocked : Transaction) (st : Stream)
    (ht : (s.port p).transaction = some clocked) (hlive : clocked.isLive = true) (htimed : t.holdTimer.isRunning = true)
    (hst : (s.port p).stream = some st) :
    s.holdLimit p t
      = ((s.setPort p { s.port p with
            transaction := some { clocked with cut := true, holdTimer := .stopped }
            sticky := (s.port p).sticky ||| 0x02
            stream := none }).setBank st.bank
          { s.bank st.bank with openStreams := (s.bank st.bank).openStreams - 1 }).finish := by
  rw [State.holdLimit, if_pos htimed, s.cutTransaction_of_live p clocked ht hlive,
    State.closeStream_of_open _ p st (by rw [State.port_setPort_self]; exact hst)]
  simp only [State.port_setPort_self, State.setPort_setPort, State.bank_setPort]
  rfl

/-- Settles O24: the last bytes are clocked, and the transaction then ends with its stream closed. -/
theorem streamClosesAtDeselectAndHoldLimit : Obligations.StreamClosesAtDeselectAndHoldLimit := by
  intro p n k s t d st head bytes ht hi hc hq hd he hst hn hhead hk
  subst hn hk
  have hframing : t.isFraming = false := t.isFraming_eq_false (.inr (.inr (by simp [hd])))
  have hlive : t.isLive = true := by simp [Transaction.isLive, hi, hc]
  have hbytes : s.takeBytes p t bytes = _ :=
    (if_neg (by rw [hframing]; exact Bool.false_ne_true)).trans
      (s.clockOut_of_stream p bytes.length t d st head ht ((t.answering_of_heard hi hc hq).trans hd) he hst hhead)
  refine ⟨?_, fun ms hms => ?_⟩
  · simp only [exec, execDeselect, ht, t.completedBy_of_not_framing bytes hframing, Bool.false_eq_true, if_false, hbytes]
    rw [State.deselect_of_stream _ p { t with taken := t.taken + bytes.length } d (st.advance (bytes.length - head.length))
      (by rw [State.port_setPort_self]) hlive hd he (by rw [State.port_setPort_self]), State.port_setPort_self,
      State.setPort_setPort]
    rfl
  · simp only [exec, execSelectHoldLimit, ht, t.completedBy_of_not_framing bytes hframing, Bool.false_eq_true, if_false,
      hbytes]
    rw [State.holdLimit_of_stream _ p t { t with taken := t.taken + bytes.length } (st.advance (bytes.length - head.length))
      (by rw [State.port_setPort_self]) hlive (by rw [hms]; rfl) (by rw [State.port_setPort_self]),
      State.port_setPort_self, State.setPort_setPort]
    rfl

/-! ## The attempt at address completion (R84 to R88) -/

/-- R168: the bytes of a DIRECT_READ frame, as numbers. -/
theorem directReadFrame_eq (a : LogicalAddress) : directReadFrame a = directReadBytes a := by
  rw [directReadFrame, addressBytes_eq]
  rfl

/-- R85, R86: an attempt that passes the checks is answered by its bank's write slot. -/
theorem State.attempt_of_access {s : State} {p : Port} {a : LogicalAddress} {r : RegionId} {range : SectorRange}
    {offset : Nat} (h : s.access p a .read inRegion = .ok r range offset) :
    s.attempt p a
      = if (s.bank range.bank).writeSlot.permitsRead = true then
          .go ⟨range.bank, range.base, range.size, range.base + offset⟩
        else .notReady range.bank := by
  simp only [State.attempt, h]

/-- A port in a frame is in it in every state that holds the same transaction of it (R145, R147). -/
theorem State.inFrame_congr {s u : State} {p : Port} {frame : List Byte} (h : s.inFrame p frame)
    (ht : (u.port p).transaction = (s.port p).transaction) : u.inFrame p frame := by
  have hsent : u.sent p = s.sent p := by rw [State.sent, State.sent, ht]
  obtain ⟨hprefix, htransaction⟩ := h
  exact ⟨hsent ▸ hprefix, by rw [ht, hsent]; exact htransaction⟩

/-- R85: a DIRECT_READ whose checks fail gets its marker and changes nothing else. -/
theorem exec_directRead_of_refused {s : State} {p : Port} {a : LogicalAddress} {m : Marker} (n : Nat)
    (hframe : s.inFrame p (directReadBytes a)) (h : s.attempt p a = .refused m) :
    exec (.directRead p a n) s = .next (s.framed p (directReadBytes a) [0xFF, 0xFF, m.code] .nothing n) := by
  simp only [exec, execDirectRead, directReadFrame_eq, s.takesFrame_of_inFrame p _ hframe, if_true, h]
  rw [s.endFrame_of_inFrame p _ hframe _ n (by simp [directReadDecision])]
  rfl

/-- R86: a DIRECT_READ behind a write is answered NOT_READY, and asks for a suspend where Table 5-2 has one. -/
theorem exec_directRead_of_notReady {s : State} {p : Port} {a : LogicalAddress} {b : BankId} (n : Nat)
    (hframe : s.inFrame p (directReadBytes a)) (h : s.attempt p a = .notReady b) :
    exec (.directRead p a n) s
      = .next ((s.setBank b (s.bank b).attemptSuspend).framed p (directReadBytes a) [0xFF, 0xFF, 0xD1] .nothing n) := by
  simp only [exec, execDirectRead, directReadFrame_eq, s.takesFrame_of_inFrame p _ hframe, if_true, h]
  rw [State.endFrame_of_inFrame _ p _ (State.inFrame_congr hframe (by rfl)) _ n (by simp [directReadDecision])]
  rfl

/-- R88: the opening of a stream, whole. -/
theorem State.openStream_eq (s : State) (p : Port) (st : Stream) :
    s.openStream p st
      = (s.setBank st.bank { s.bank st.bank with openStreams := (s.bank st.bank).openStreams + 1 }).setPort p
          { s.port p with stream := some st } := rfl

/-- R2, R88: the opening of a stream changes no byte that is read. -/
theorem State.sample_openStream (s : State) (p : Port) (st : Stream) (as : List Nat) (n : Nat) :
    (s.openStream p st).sample as n = s.sample as n := by
  refine State.sample_congr (s := s) (u := s.openStream p st) rfl (fun b => ?_) as n
  rw [State.openStream_eq, State.bank_setPort, State.bank_setBank]
  split
  · next hb => rw [hb]
  · rfl

/-- R89, R145, R147, R150: a frame decided GO with the stream open, taken to its end, whole: the stream's bytes follow the
answer. -/
theorem State.endFrame_of_stream (s : State) (p : Port) (frame : List Byte) (h : s.inFrame p frame) (answer : List Byte)
    (st : Stream) (hst : (s.port p).stream = some st) (n : Nat) :
    s.endFrame p frame ⟨answer, .stream⟩ n
      = { s with freeCount := (s.sample (st.nextAddresses (n - answer.length)) s.freeCount).2 }.setPort p { s.port p with
          transaction := some ⟨false, false, false, kindOfFrame frame, frame, frame.length + n, .running 50,
            some ⟨answer, .stream⟩⟩
          stream := some (st.advance (n - answer.length))
          sdo := (s.port p).sdo ++ (List.replicate (frame.length - (s.sent p).length) Config.filler
            ++ (answer.take n ++ (s.sample (st.nextAddresses (n - answer.length)) s.freeCount).1)) } := by
  have htakes := s.takesFrame_of_inFrame p frame h
  obtain ⟨-, ht⟩ := h
  have hlength : n - (answer.take n).length = n - answer.length := by
    rw [List.length_take]
    omega
  have hsample : ∀ x as m, (s.setPort p x).sample as m = s.sample as m :=
    fun x => State.sample_congr (u := s.setPort p x) rfl fun _ => rfl
  simp only [State.endFrame, htakes, if_true, State.decideFrame, ht, State.takeFrame, State.modPort]
  rw [State.clockOut_of_stream _ p n _ ⟨answer, .stream⟩ st (answer.take n) (by rw [State.port_setPort_self]) rfl rfl
    (by rw [State.port_setPort_self]; exact hst) (by simp), hlength]
  simp only [hsample, State.port_setPort_self, State.freeCount_setPort, List.append_assoc]
  exact State.setPort_setPort { s with freeCount := _ } p _ _

/-- R88, R89: a DIRECT_READ answered GO opens its stream, whose bytes follow the marker. -/
theorem exec_directRead_of_go {s : State} {p : Port} {a : LogicalAddress} {st : Stream} (n : Nat)
    (hframe : s.inFrame p (directReadBytes a)) (h : s.attempt p a = .go st) :
    exec (.directRead p a n) s
      = .next { (s.setBank st.bank { s.bank st.bank with openStreams := (s.bank st.bank).openStreams + 1 }).setPort p
            { s.port p with
              transaction := some ⟨false, false, false, some .directRead, directReadBytes a, 4 + n, .running 50,
                some ⟨[0xFF, 0xFF, 0xD0], .stream⟩⟩
              stream := some (st.advance (n - 3))
              sdo := (s.port p).sdo ++ (List.replicate (4 - (s.sent p).length) 0xFF ++ ([0xFF, 0xFF, 0xD0].take n
                ++ (s.sample (st.nextAddresses (n - 3)) s.freeCount).1)) } with
          freeCount := (s.sample (st.nextAddresses (n - 3)) s.freeCount).2 } := by
  have hport : (s.openStream p st).port p = { s.port p with stream := some st } := by
    rw [State.openStream_eq, State.port_setPort_self]
  have hopen : (s.openStream p st).inFrame p (directReadBytes a) := State.inFrame_congr hframe (by rw [hport])
  have hsent : (s.openStream p st).sent p = s.sent p := by simp only [State.sent, hport]
  simp only [exec, execDirectRead, directReadFrame_eq, s.takesFrame_of_inFrame p _ hframe, if_true, h, directReadDecision]
  rw [State.endFrame_of_stream _ p _ hopen _ st (by rw [hport])]
  simp only [hsent, hport, s.sample_openStream]
  exact congrArg Host.Outcome.next
    (State.setPort_setPort { s.setBank st.bank { s.bank st.bank with openStreams := _ } with freeCount := _ } p _ _)

/-- R12, R86: an erase below its limit is asked to suspend. -/
theorem Bank.attemptSuspend_of_erasing (k : Bank) (op : WriteOperation) (hw : k.writeSlot = .busy .erasing op)
    (hn : k.suspendCount < 8) : k.attemptSuspend = { k with writeSlot := .busy .suspending op } := by
  rw [Bank.attemptSuspend, if_pos (k.suspendable_eq_true.2 ⟨op, hw, hn⟩), Bank.requestSuspend, hw]

/-- R15, R86: no other write is asked to suspend. -/
theorem Bank.attemptSuspend_of_not_suspendable (k : Bank)
    (h : ∀ op, k.writeSlot = .busy .erasing op → 8 ≤ k.suspendCount) : k.attemptSuspend = k := by
  refine if_neg fun hs => ?_
  obtain ⟨op, hw, hn⟩ := k.suspendable_eq_true.1 hs
  exact Nat.not_le.2 hn (h op hw)

/-- Settles O12: the checks in order, then the write slot by Table 5-2. -/
theorem directReadDecidesAtAddressCompletion : Obligations.DirectReadDecidesAtAddressCompletion := by
  intro p a n s hframe
  refine ⟨fun hdenied => ?_, fun hrange => ?_, fun r range offset hok => ?_⟩
  · replace hdenied : s.access p a .read inRegion = .failed .denied := hdenied
    exact exec_directRead_of_refused (m := .denied) n hframe (by simp only [State.attempt, hdenied])
  · replace hrange : s.access p a .read inRegion = .failed .range := hrange
    exact exec_directRead_of_refused (m := .range) n hframe (by simp only [State.attempt, hrange])
  · have hattempt := State.attempt_of_access (s := s) hok
    refine ⟨fun st op hw hst => ?_, fun op hw hn => ?_, fun hw => ?_⟩
    · have hwait : (s.bank range.bank).writeSlot.permitsRead = false := by
        rcases hst with rfl | rfl | rfl | ⟨rfl, -⟩ <;> rw [hw] <;> rfl
      have hlimit : ∀ other, (s.bank range.bank).writeSlot = .busy .erasing other →
          8 ≤ (s.bank range.bank).suspendCount := fun other herasing => by
        obtain ⟨rfl, -⟩ := WriteSlot.busy.inj (hw.symm.trans herasing)
        simpa using hst
      rw [hwait, if_neg Bool.false_ne_true] at hattempt
      rw [exec_directRead_of_notReady n hframe hattempt, Bank.attemptSuspend_of_not_suspendable _ hlimit, s.setBank_bank]
    · rw [hw, WriteSlot.permitsRead, if_neg Bool.false_ne_true] at hattempt
      rw [exec_directRead_of_notReady n hframe hattempt, Bank.attemptSuspend_of_erasing _ op hw hn]
    · rw [if_pos ((WriteSlot.permitsRead_iff _).2 hw)] at hattempt
      rw [exec_directRead_of_go n hframe hattempt]
      simp only [Stream.advance, Stream.nextAddresses, Nat.add_sub_cancel_left]

end Sys2Proof.Machine
end

section
/-! PROOFS. The digest and the check byte, shift by shift, and the outcome of an ARM_TRIAL whose last chunk has been
read. -/

namespace Sys2Proof.Machine

open Sys2Proof

/-! ## The shifts of the digest and of the check byte (R96, R149) -/

/-- A mask of one bit is met where that bit is set. -/
theorem and_twoPow_eq_iff {w : Nat} (x : BitVec w) (i : Nat) (hi : i < w) :
    x &&& BitVec.twoPow w i = BitVec.twoPow w i ↔ x.getLsbD i = true := by
  rw [BitVec.and_twoPow]
  cases hx : x.getLsbD i with
  | true => simp
  | false => simpa using fun h0 => absurd (congrArg (·.getLsbD i) h0) (by simp [hi])

/-- R96: one shift of the digest register, by the mask of its lowest bit. -/
theorem crc32Shift_eq (r : Word) :
    crc32Shift r = if r &&& 1 = 1 then (r >>> 1) ^^^ 0xEDB88320 else r >>> 1 := by
  have hmask : r &&& 1 = 1 ↔ r.getLsbD 0 = true := and_twoPow_eq_iff r 0 (by decide)
  simp only [crc32Shift, hmask]

/-- R149: one shift of the check register, by the mask of its highest bit. -/
theorem crc8Shift_eq (r : Byte) :
    crc8Shift r = if r &&& 0x80 = 0x80 then (r <<< 1) ^^^ 0x07 else r <<< 1 := by
  have hmask : r &&& 0x80 = 0x80 ↔ r.getLsbD 7 = true := and_twoPow_eq_iff r 7 (by decide)
  simp only [crc8Shift, hmask, BitVec.msb_eq_getLsbD_last]

/-- R96: one byte through the digest register is eight shifts. -/
theorem crc32Byte_eq_iterate (r : Word) (b : Byte) : crc32Byte r b = crc32Shift^[8] (r ^^^ b.setWidth 32) := rfl

/-- R149: one byte through the check register is eight shifts. -/
theorem crc8Byte_eq_iterate (r b : Byte) : crc8Byte r b = crc8Shift^[8] (r ^^^ b) := rfl

/-- R149: the last byte of a frame passes through the register that the bytes before it leave. -/
theorem crc8_concat (bytes : List Byte) (b : Byte) : crc8 (bytes ++ [b]) = crc8Byte (crc8 bytes) b :=
  List.foldl_concat crc8Byte 0 b bytes

/-- Settles O44: each byte is eight shifts, and each shift tests one bit. -/
theorem checksumsFollowTheirSteps : Obligations.ChecksumsFollowTheirSteps := by
  refine ⟨fun r bytes b => ⟨rfl, rfl, ?_⟩, rfl, fun bytes b => ?_, by decide +kernel⟩
  · rw [crc32Byte_eq_iterate, funext crc32Shift_eq]
  · rw [crc8_concat, crc8Byte_eq_iterate, funext crc8Shift_eq]

/-! ## The outcome of an ARM_TRIAL (R106) -/

/-- R106, step 1: when a write takes a sector of a range. -/
theorem Bank.writesIn_iff (k : Bank) (range : SectorRange) :
    k.writesIn range = true ↔ ∃ st op, k.writeSlot = .busy st op ∧ range.first ≤ op.target.sector
      ∧ op.target.sector < range.first + range.count := by
  cases hw : k.writeSlot with
  | none => simp [Bank.writesIn, hw]
  | busy st op => simp [Bank.writesIn, hw, SectorRange.contains]

/-- R106, step 3: when the record and the region table still allow the arming. -/
theorem State.armStands_iff (s : State) (range : SectorRange) (a : Arming) :
    s.armStands range a = true ↔ (s.port a.target).boot.enabled = true ∧ (s.port a.target).trial = none
      ∧ (s.port a.target).boot.active.other = a.slot ∧ (s.port a.target).boot.slot a.slot = a.region
      ∧ (s.region a.region).range? = some range := by
  simp [State.armStands, and_assoc]

/-- R50: a completion without data of a current request. -/
theorem State.completeBare_of_current (s : State) (p : Port) (cur : Current) (st : Status)
    (h : (s.port p).current = some cur) : s.completeBare p st = s.finished p cur.request st false [] :=
  s.complete_of_current p cur st false [] h

/-- R106: arming a trial leaves every current request. -/
theorem State.current_modPort_trial (s : State) (p t : Port) (slot : Option Slot) :
    ((s.modPort t fun x => { x with trial := slot }).port p).current = (s.port p).current := by
  rw [State.port_modPort]
  split
  · next h => rw [h]
  · rfl

section

variable (s : State) (p : Port) (cur : Current) (v : VerifyRecord) (a : Arming) (digest : Word)
  (h : (s.port p).current = some cur)
include h

/-- R106, step 1: a write of a sector that was verified. -/
theorem State.decideArm_of_writing (hw : (s.bank v.range.bank).writesIn v.range = true) :
    s.decideArm p v a digest = s.finished p cur.request .disturbed false [] := by
  rw [State.decideArm, if_pos hw, s.completeBare_of_current p cur _ h]

/-- R106, step 2: a digest other than the one expected. -/
theorem State.decideArm_of_mismatch (hw : (s.bank v.range.bank).writesIn v.range ≠ true) (hd : digest ≠ a.digest) :
    s.decideArm p v a digest = s.finished p cur.request .mismatch false [] := by
  rw [State.decideArm, if_neg hw, if_pos hd, s.completeBare_of_current p cur _ h]

/-- R106, step 3: a record or an entry that has changed. -/
theorem State.decideArm_of_conflict (hw : (s.bank v.range.bank).writesIn v.range ≠ true) (hd : digest = a.digest)
    (hs : s.armStands v.range a ≠ true) :
    s.decideArm p v a digest = s.finished p cur.request .conflict false [] := by
  rw [State.decideArm, if_neg hw, if_neg (not_not_intro hd), if_pos (by simpa using hs),
    s.completeBare_of_current p cur _ h]

/-- R106, step 4: the trial is armed. -/
theorem State.decideArm_of_stands (hw : (s.bank v.range.bank).writesIn v.range ≠ true) (hd : digest = a.digest)
    (hs : s.armStands v.range a = true) :
    s.decideArm p v a digest
      = (s.modPort a.target fun x => { x with trial := some a.slot }).finished p cur.request .done false [] := by
  rw [State.decideArm, if_neg hw, if_neg (not_not_intro hd), if_neg (by simp [hs]),
    State.completeBare_of_current _ p cur _ ((s.current_modPort_trial p a.target _).trans h)]

end

/-- R98, R106: after its last chunk an ARM_TRIAL is decided on the inverted register. -/
theorem State.returnChunk_of_arm (s : State) (b : BankId) (p : Port) (v : VerifyRecord) (a : Arming) (register : Word)
    (h : v.range.count ≤ v.next + 1) (harm : v.arm = some a) :
    s.returnChunk b p v register = s.decideArm p v a (~~~register) := by
  rw [State.returnChunk, if_neg (Nat.not_lt.2 h)]
  simp only [harm]
  rfl

/-- READ_COMPLETE, where the read slot holds a read. -/
theorem exec_readComplete (b : BankId) (s : State) (op : ReadOperation) (h : (s.bank b).readSlot = some op) :
    exec (.readComplete b) s = .next (s.readComplete b op).finish := by
  simp only [exec, execReadComplete, h]

/-- Settles O45: the end of the last chunk's read leaves what the four steps of `decideArm` test. -/
theorem armTrialOutcome : Obligations.ArmTrialOutcome := by
  intro b s p first length cur v a loaded digest k n writing stands hslot hloaded hcur hv harm hlast hb hdigest hn hk
    hwriting hstands
  rw [← SectorRange.bank_eq] at hb
  have hexec : exec (.readComplete b) s
      = .next (State.decideArm { s.setBank b k with freeCount := n } p v a digest).finish := by
    rw [exec_readComplete b s _ hslot, s.readComplete_of_verifyChunk b p first length cur v loaded hloaded hcur hv,
      State.returnChunk_of_arm _ b p v a _ hlast harm, hdigest, hn, hk]
  have hbank : State.bank { s.setBank b k with freeCount := n } v.range.bank = k := hb ▸ s.bank_setBank_self b k
  rw [hexec]
  generalize hu : ({ s.setBank b k with freeCount := n } : State) = u at hbank ⊢
  have hcur' : (u.port p).current = some cur := by rw [← hu]; exact hcur
  have hwriting' : (u.bank v.range.bank).writesIn v.range = true ↔ writing := by
    rw [hwriting, hbank, Bank.writesIn_iff, hk]
  have hstands' : u.armStands v.range a = true ↔ stands := by
    rw [hstands, ← hu]
    exact State.armStands_iff { s.setBank b k with freeCount := n } v.range a
  refine ⟨fun hw => ?_, fun hw hd => ?_, fun hw hd hs => ?_, fun hw hd hs => ?_⟩
  · rw [u.decideArm_of_writing p cur v a digest hcur' (hwriting'.2 hw), ← hu]
    rfl
  · rw [u.decideArm_of_mismatch p cur v a digest hcur' (mt hwriting'.1 hw) hd, ← hu]
    rfl
  · rw [u.decideArm_of_conflict p cur v a digest hcur' (mt hwriting'.1 hw) hd (mt hstands'.1 hs), ← hu]
    rfl
  · rw [u.decideArm_of_stands p cur v a digest hcur' (mt hwriting'.1 hw) hd (hstands'.2 hs), ← hu]
    rfl

end Sys2Proof.Machine
end

section
/-! PROOFS. The pulse start and the entry into FAILED: the flush, the cut of a live transaction, and the port they hold. -/

namespace Sys2Proof.Machine

open Sys2Proof

/-! ## The cut of a transaction (R154) -/

/-- R154: a port after the cut of its live transaction, if it has one. -/
def PortState.cutLive (x : PortState) : PortState :=
  if x.hasLive then
    { x with
      transaction := x.transaction.map fun tr => { tr with cut := true, holdTimer := .stopped }
      sticky := x.sticky ||| Event.frameAbort.mask }
  else x

theorem PortState.cutLive_of_not_live (x : PortState) (h : x.hasLive = false) : x.cutLive = x := by
  rw [PortState.cutLive, h]
  rfl

/-- R154: the cut of a live transaction sets FRAME_ABORT. -/
theorem PortState.cutLive_of_live (x : PortState) (tr : Transaction) (h : x.transaction = some tr)
    (hl : tr.isLive = true) :
    x.cutLive = { x with
      transaction := some { tr with cut := true, holdTimer := .stopped }
      sticky := x.sticky ||| Event.frameAbort.mask } := by
  have hlive : x.hasLive = true := by rw [PortState.hasLive, h, Option.any_some, hl]
  rw [PortState.cutLive, if_pos hlive, h, Option.map_some]

/-- R154: after the cut no transaction is live. -/
theorem PortState.hasLive_cutLive (x : PortState) : x.cutLive.hasLive = false := by
  cases hl : x.hasLive with
  | false => rw [x.cutLive_of_not_live hl]; exact hl
  | true =>
    obtain ⟨tr, htr, hlive⟩ := (Option.any_eq_true _ _).1 hl
    rw [x.cutLive_of_live tr htr hlive]
    simp [PortState.hasLive, Transaction.isLive]

/-- R154: the cut changes its port's transaction and events alone. -/
theorem State.cutTransaction_eq_modPort (s : State) (p : Port) : s.cutTransaction p = s.modPort p PortState.cutLive := by
  cases hl : (s.port p).hasLive with
  | false => rw [s.cutTransaction_of_not_live p hl, State.modPort, PortState.cutLive_of_not_live _ hl, s.setPort_port]
  | true =>
    obtain ⟨tr, htr, hlive⟩ := (Option.any_eq_true _ _).1 hl
    rw [s.cutTransaction_of_live p tr htr hlive, State.modPort, PortState.cutLive_of_live _ tr htr hlive]

/-! ## The port after a pulse start and after an entry into FAILED (R110, R111, R117) -/

/-- R110, R111: a pulse start is the flush and one change of the flushed port. -/
theorem State.pulseStart_eq (s : State) (p : Port) (cause : Option Cause) :
    s.pulseStart p cause = (s.flush p).modPort p fun x => x.cutLive.pulseStart cause := by
  rw [State.pulseStart, State.cutTransaction_eq_modPort, State.modPort_modPort]

/-- R117: an entry into FAILED is the flush, one change of the flushed port, and PEER_FAILED. -/
theorem State.enterFailed_eq (s : State) (p : Port) :
    s.enterFailed p = ((s.flush p).modPort p fun x => x.cutLive.enterFailed).raise s.admin .peerFailed := by
  rw [State.enterFailed, State.cutTransaction_eq_modPort, State.modPort_modPort]

/-- R163: a port with no event enabled does not assert ATTN. -/
theorem State.attnAsserted_of_no_enables (s : State) (p : Port) (h : (s.port p).enables = 0) :
    s.attnAsserted p = false := by
  rw [State.attnAsserted, h]
  simp

/-- R113, R155: MRST is asserted exactly where transactions are ignored. -/
theorem State.mrstAsserted_eq (s : State) (p : Port) : s.mrstAsserted p = s.ignoresTransactions p := rfl

/-- R113: a pulse holds its master. -/
theorem State.ignoresTransactions_of_pulse (s : State) (p : Port) (h : (s.port p).pulse.isRunning = true) :
    s.ignoresTransactions p = true := by
  rw [State.ignoresTransactions, h, Bool.or_true, Bool.true_or]

/-- R113: a FAILED port holds its master. -/
theorem State.ignoresTransactions_of_failed (s : State) (p : Port) (h : (s.port p).bootState = .failed) :
    s.ignoresTransactions p = true := by
  rw [State.ignoresTransactions, h, beq_self_eq_true, Bool.or_true]

/-- R159: an event raised leaves a port's fields but its events. -/
theorem State.port_raise (s : State) (p q : Port) (e : Event) :
    (s.raise p e).port q
      = { s.port q with sticky := if q = p then (s.port q).sticky ||| e.mask else (s.port q).sticky } := by
  rw [State.raise, State.port_modPort]
  split
  · next h => rw [h]
  · rfl

/-- R154: the transaction and the events of a port after the cut, as the model's statements write them. -/
theorem PortState.cutLive_fields (x : PortState) :
    (x.hasLive = false → x.cutLive.transaction = x.transaction ∧ x.cutLive.sticky = x.sticky)
    ∧ ∀ u, x.transaction = some u → u.ignored = false → u.cut = false →
      x.cutLive.transaction = some { u with cut := true, holdTimer := .stopped }
      ∧ x.cutLive.sticky = x.sticky ||| 0x02 := by
  refine ⟨fun h => by rw [x.cutLive_of_not_live h]; exact ⟨rfl, rfl⟩, fun u hu hi hc => ?_⟩
  rw [x.cutLive_of_live u hu (by rw [Transaction.isLive, hi, hc]; rfl)]
  exact ⟨rfl, rfl⟩

/-- R154: the cut changes the transaction and the events alone. -/
theorem PortState.cutLive_frame (x : PortState) :
    x.cutLive = { x with transaction := x.cutLive.transaction, sticky := x.cutLive.sticky } := by
  unfold PortState.cutLive
  split <;> rfl

/-- Settles O27: the flush, and then one change of the flushed port, whose enables are 0 and whose master is held. -/
theorem pulseAndFailureHoldThePort : Obligations.PulseAndFailureHoldThePort := by
  refine ⟨fun s p cause => ?_, fun s p => ?_⟩
  · obtain ⟨hidle, hlive⟩ := ((s.flush p).port p).cutLive_fields
    have hport : (s.pulseStart p cause).port p = ((s.flush p).port p).cutLive.pulseStart cause := by
      rw [s.pulseStart_eq, State.port_modPort_self]
    have hheld : (s.pulseStart p cause).ignoresTransactions p = true :=
      State.ignoresTransactions_of_pulse _ p (by rw [hport]; rfl)
    refine ⟨_, _, _, _, rfl, rfl, hidle, hlive, ?_, (State.mrstAsserted_eq _ p).trans hheld, ?_, hheld⟩
    · rw [s.pulseStart_eq, State.modPort, PortState.cutLive_frame]
      cases cause with
      | none => rfl
      | some c => cases c <;> rfl
    · exact State.attnAsserted_of_no_enables _ p (by rw [hport]; rfl)
  · obtain ⟨hidle, hlive⟩ := ((s.flush p).port p).cutLive_fields
    have hport : (s.enterFailed p).port p = { ((s.flush p).port p).cutLive.enterFailed with
        sticky := ((s.enterFailed p).port p).sticky } := by
      rw [s.enterFailed_eq, State.port_raise, State.port_modPort_self]
    have hheld : (s.enterFailed p).ignoresTransactions p = true :=
      State.ignoresTransactions_of_failed _ p (by rw [hport]; rfl)
    refine ⟨_, _, _, _, rfl, rfl, hidle, hlive, ?_, (State.mrstAsserted_eq _ p).trans hheld, ?_, hheld⟩
    · rw [s.enterFailed_eq, State.modPort, PortState.cutLive_frame]
      rfl
    · exact State.attnAsserted_of_no_enables _ p (by rw [hport]; rfl)

end Sys2Proof.Machine
end

section
/-! PROOFS. Boot records port by port: what keeps one legal and its held port without a live transaction, and what a
flush, a pulse and an entry into FAILED make of it. -/

namespace Sys2Proof.Machine

open Sys2Proof

/-! ## One port -/

/-- Table 7-2: the fields of a port's boot record and its timers. -/
def PortState.bootRecord (x : PortState) :
    StoredBoot × Option Slot × Nat × BootState × Timer × Watchdog × Timer :=
  (x.boot, x.trial, x.attempts, x.bootState, x.bootTimer, x.watchdog, x.pulse)

/-- The fields of a boot record, one by one. -/
theorem PortState.bootRecord_inj {x y : PortState} (h : y.bootRecord = x.bootRecord) :
    y.boot = x.boot ∧ y.trial = x.trial ∧ y.attempts = x.attempts ∧ y.bootState = x.bootState
      ∧ y.bootTimer = x.bootTimer ∧ y.watchdog = x.watchdog ∧ y.pulse = x.pulse := by
  simpa only [PortState.bootRecord, Prod.mk.injEq] using h

/-- R113: whether a port's master is held in a start-up state. -/
def PortState.isHeld (u : StartUp) (x : PortState) : Bool :=
  u.isStartingUp || x.pulse.isRunning || x.bootState == .failed

/-- R113, R155: a legal boot record, and no live transaction where the master is held. -/
def PortState.Supervised (u : StartUp) (x : PortState) : Prop :=
  x.bootLegal ∧ (x.isHeld u = true → x.hasLive = false)

/-- The model's invariant, port by port. -/
theorem State.bootRecordsLegal_iff (s : State) : s.bootRecordsLegal ↔ ∀ p, (s.port p).Supervised s.startUp :=
  forall_and.symm

/-- The same boot record is as legal. -/
theorem PortState.bootLegal_congr {x y : PortState} (h : y.bootRecord = x.bootRecord) (hx : x.bootLegal) :
    y.bootLegal := by
  obtain ⟨hboot, htrial, hattempts, hstate, htimer, hwatchdog, hpulse⟩ := PortState.bootRecord_inj h
  rw [PortState.bootLegal, hboot, htrial, hattempts, hstate, htimer, hwatchdog, hpulse]
  exact hx

/-- The same boot record holds the master as before. -/
theorem PortState.isHeld_congr {x y : PortState} (h : y.bootRecord = x.bootRecord) (u : StartUp) :
    y.isHeld u = x.isHeld u := by
  obtain ⟨-, -, -, hstate, -, -, hpulse⟩ := PortState.bootRecord_inj h
  rw [PortState.isHeld, hstate, hpulse]
  rfl

/-- A port with the same boot record and no live transaction that was not live. -/
structure PortState.SameBoot (x y : PortState) : Prop where
  record : y.bootRecord = x.bootRecord
  live : x.hasLive = false → y.hasLive = false

theorem PortState.SameBoot.refl (x : PortState) : x.SameBoot x := ⟨rfl, id⟩

theorem PortState.SameBoot.supervised {u : StartUp} {x y : PortState} (h : x.SameBoot y) (hx : x.Supervised u) :
    y.Supervised u := by
  obtain ⟨hlegal, hheld⟩ := hx
  refine ⟨PortState.bootLegal_congr h.record hlegal, fun hy => h.live (hheld ?_)⟩
  rw [← PortState.isHeld_congr h.record u]
  exact hy

/-- R59: a flushed port has its boot record and no further live transaction. -/
theorem PortState.sameBoot_flush (x : PortState) : x.SameBoot { x.flush with stream := none } := by
  have hlive : ∀ tr : Transaction, tr.flush.isLive = tr.isLive := fun tr => by
    unfold Transaction.flush
    split
    · rfl
    · split <;> rfl
  refine ⟨rfl, fun h => ?_⟩
  cases ht : x.transaction with
  | none => simp [PortState.hasLive, PortState.flush, ht]
  | some tr =>
    rw [PortState.hasLive, ht, Option.any_some] at h
    simp [PortState.hasLive, PortState.flush, ht, hlive, h]

/-- R154: a cut port has its boot record. -/
theorem PortState.sameBoot_cutLive (x : PortState) : x.SameBoot x.cutLive :=
  ⟨by rw [x.cutLive_frame]; rfl, fun _ => x.hasLive_cutLive⟩

/-! ## Timers -/

@[simp] theorem Timer.isRunning_stopped : Timer.stopped.isRunning = false := rfl
@[simp] theorem Timer.isRunning_running (ms : Nat) : (Timer.running ms).isRunning = true := rfl
@[simp] theorem Watchdog.isRunning_stopped : Watchdog.stopped.isRunning = false := rfl

/-! ## Records from which a pulse or FAILED follows -/

/-- A boot record whose legality does not rest on its state and timers: its stored fields, its trial slot, its attempts
and OFF where it is disabled. -/
structure PortState.StoredLegal (x : PortState) : Prop where
  limit : 1 ≤ x.boot.attemptLimit ∧ x.boot.attemptLimit ≤ 7
  disabled : x.boot.enabled = false → x.bootState = .off ∧ x.attempts = 0 ∧ x.trial = none
  trial : x.trial = none ∨ x.trial = some x.boot.active.other

theorem PortState.bootLegal.stored {x : PortState} (h : x.bootLegal) : x.StoredLegal := by
  obtain ⟨hlimit, -, -, -, hoff, hdisabled, -, -, htrial, -⟩ := h
  exact ⟨hlimit, fun he => ⟨hoff.2 he, hdisabled he⟩, htrial⟩

theorem PortState.StoredLegal.congr {x y : PortState} (h : x.StoredLegal) (hr : y.bootRecord = x.bootRecord) :
    y.StoredLegal := by
  obtain ⟨hboot, htrial, hattempts, hstate, -⟩ := PortState.bootRecord_inj hr
  obtain ⟨hlimit, hdisabled, htrials⟩ := h
  refine ⟨hboot ▸ hlimit, ?_, ?_⟩
  · rw [hboot, htrial, hattempts, hstate]; exact hdisabled
  · rw [hboot, htrial]; exact htrials

/-- R116: a record that is not FAILED has attempts left. -/
theorem PortState.bootLegal.attempts_lt {x : PortState} (h : x.bootLegal) (hf : x.bootState ≠ .failed) :
    x.attempts < x.boot.attemptLimit := by
  obtain ⟨-, hle, hfailed, -⟩ := h
  exact Nat.lt_of_le_of_ne hle (mt hfailed.1 hf)

/-- R110: a pulse leaves a record with attempts left legal: HELD where it is supervised, OFF where it is not. -/
theorem PortState.StoredLegal.pulseStart {x : PortState} (h : x.StoredLegal) (hn : x.attempts < x.boot.attemptLimit)
    (hl : x.hasLive = false) (cause : Option Cause) (u : StartUp) : (x.pulseStart cause).Supervised u := by
  obtain ⟨hlimit, hdisabled, htrial⟩ := h
  refine ⟨?_, fun _ => hl⟩
  have hne : x.attempts ≠ x.boot.attemptLimit := Nat.ne_of_lt hn
  cases he : x.boot.enabled with
  | false =>
    obtain ⟨hoff, hzero, hnone⟩ := hdisabled he
    have hlimit' : 0 ≠ x.boot.attemptLimit := by omega
    simp [PortState.bootLegal, PortState.pulseStart, he, hoff, hzero, hnone, hlimit, hlimit']
  | true =>
    simp [PortState.bootLegal, PortState.pulseStart, he, hlimit, hne, htrial, Nat.le_of_lt hn]

/-- R116, R117: a supervised record whose attempts are used up is legal in FAILED. -/
theorem PortState.StoredLegal.enterFailed {x : PortState} (h : x.StoredLegal) (he : x.boot.enabled = true)
    (hn : x.attempts = x.boot.attemptLimit) (hl : x.hasLive = false) (u : StartUp) : x.enterFailed.Supervised u := by
  obtain ⟨hlimit, -, htrial⟩ := h
  refine ⟨?_, fun _ => hl⟩
  simp [PortState.bootLegal, PortState.enterFailed, he, hlimit, hn, htrial]

/-! ## What an operation keeps -/

/-- An operation leaves the start-up state alone, and boot records legal that were legal. -/
structure State.KeepsBoot (s t : State) : Prop where
  startUp : t.startUp = s.startUp
  legal : s.bootRecordsLegal → t.bootRecordsLegal

theorem State.KeepsBoot.refl (s : State) : s.KeepsBoot s := ⟨rfl, id⟩

theorem State.KeepsBoot.trans {s t u : State} (h : s.KeepsBoot t) (h' : t.KeepsBoot u) : s.KeepsBoot u :=
  ⟨h'.startUp.trans h.startUp, fun hs => h'.legal (h.legal hs)⟩

/-- An operation that changes the boot record of one port alone. -/
theorem State.KeepsBoot.of_port {s t : State} (p : Port) (hu : t.startUp = s.startUp)
    (ho : ∀ q, q ≠ p → t.port q = s.port q)
    (hp : (s.port p).Supervised s.startUp → (t.port p).Supervised s.startUp) : s.KeepsBoot t := by
  refine ⟨hu, fun hs => ?_⟩
  rw [State.bootRecordsLegal_iff] at hs ⊢
  intro q
  rw [hu]
  by_cases hq : q = p
  · subst hq; exact hp (hs q)
  · rw [ho q hq]; exact hs q

/-- An operation that leaves every port's boot record alone. -/
theorem State.KeepsBoot.of_sameBoot {s t : State} (hu : t.startUp = s.startUp)
    (h : ∀ p, (s.port p).SameBoot (t.port p)) : s.KeepsBoot t := by
  refine ⟨hu, fun hs => ?_⟩
  rw [State.bootRecordsLegal_iff] at hs ⊢
  exact fun p => hu ▸ (h p).supervised (hs p)

/-- An operation on the banks, the regions, the writer or STLED. -/
theorem State.KeepsBoot.of_ports {s t : State} (hu : t.startUp = s.startUp) (h : ∀ p, t.port p = s.port p) :
    s.KeepsBoot t := .of_sameBoot hu fun p => h p ▸ .refl _

/-- A change of a port's boot record. -/
theorem State.keepsBoot_modPort (s : State) (p : Port) (f : PortState → PortState)
    (h : (s.port p).Supervised s.startUp → (f (s.port p)).Supervised s.startUp) : s.KeepsBoot (s.modPort p f) :=
  .of_port p rfl (fun q hq => by rw [State.port_modPort, if_neg hq]) (by rw [State.port_modPort_self]; exact h)

/-- A change of a port off its boot record. -/
theorem State.keepsBoot_modPort_same (s : State) (p : Port) (f : PortState → PortState)
    (h : (s.port p).SameBoot (f (s.port p))) : s.KeepsBoot (s.modPort p f) := s.keepsBoot_modPort p f h.supervised

/-- A change of a port off its boot record and its transaction. -/
theorem State.keepsBoot_modPort_off (s : State) (p : Port) (f : PortState → PortState)
    (hr : (f (s.port p)).bootRecord = (s.port p).bootRecord)
    (ht : (f (s.port p)).transaction = (s.port p).transaction) : s.KeepsBoot (s.modPort p f) :=
  s.keepsBoot_modPort_same p f ⟨hr, fun h => by rw [PortState.hasLive, ht]; exact h⟩

/-! ## Flushes, pulses and FAILED -/

@[simp] theorem State.startUp_flush (s : State) (p : Port) : (s.flush p).startUp = s.startUp := by rw [s.flush_frame p]

theorem State.keepsBoot_flush (s : State) (p : Port) : s.KeepsBoot (s.flush p) := by
  refine .of_sameBoot (s.startUp_flush p) fun q => ?_
  rw [State.port_flush]
  split
  · next e => exact e ▸ PortState.sameBoot_flush _
  · exact .refl _

/-- R59, R154: a port after a flush and a cut. -/
def PortState.flushCut (x : PortState) : PortState := ({ x.flush with stream := none } : PortState).cutLive

/-- R59, R154: a flush and a cut leave the boot record, and no live transaction. -/
theorem PortState.flushCut_record (x : PortState) : x.flushCut.bootRecord = x.bootRecord ∧ x.flushCut.hasLive = false :=
  ⟨(PortState.sameBoot_cutLive _).record, PortState.hasLive_cutLive _⟩

/-- R110, R111: the ports after a pulse start. -/
theorem State.port_pulseStart (s : State) (p q : Port) (cause : Option Cause) :
    (s.pulseStart p cause).port q = if q = p then (s.port p).flushCut.pulseStart cause else s.port q := by
  rw [State.pulseStart_eq, State.port_modPort, State.port_flush, State.port_flush, if_pos rfl]
  split <;> rfl

@[simp] theorem State.startUp_pulseStart (s : State) (p : Port) (cause : Option Cause) :
    (s.pulseStart p cause).startUp = s.startUp := by
  rw [State.pulseStart_eq, State.startUp_modPort, State.startUp_flush]

/-- R110: a pulse that follows a change of its port, where the change leaves attempts. -/
theorem State.keepsBoot_modPort_pulseStart (s : State) (p : Port) (f : PortState → PortState) (cause : Option Cause)
    (h : (s.port p).bootLegal → (f (s.port p)).StoredLegal
      ∧ (f (s.port p)).attempts < (f (s.port p)).boot.attemptLimit) :
    s.KeepsBoot ((s.modPort p f).pulseStart p cause) := by
  refine .of_port p (by simp) (fun q hq => ?_) fun hs => ?_
  · rw [State.port_pulseStart, if_neg hq, State.port_modPort, if_neg hq]
  · obtain ⟨hstored, hlt⟩ := h hs.1
    obtain ⟨hrecord, hlive⟩ := (f (s.port p)).flushCut_record
    obtain ⟨hboot, -, hattempts, -⟩ := PortState.bootRecord_inj hrecord
    rw [State.port_pulseStart, if_pos rfl, State.port_modPort_self]
    exact (hstored.congr hrecord).pulseStart (by rw [hboot, hattempts]; exact hlt) hlive cause s.startUp

/-- R110: a pulse of a port that is not FAILED. -/
theorem State.keepsBoot_pulseStart (s : State) (p : Port) (cause : Option Cause)
    (h : (s.port p).bootLegal → (s.port p).bootState ≠ .failed) : s.KeepsBoot (s.pulseStart p cause) := by
  have hsame : s.modPort p id = s := s.setPort_port p
  have hpulse := s.keepsBoot_modPort_pulseStart p id cause fun hl => ⟨hl.stored, hl.attempts_lt (h hl)⟩
  rwa [hsame] at hpulse

theorem State.keepsBoot_raise (s : State) (p : Port) (e : Event) : s.KeepsBoot (s.raise p e) :=
  s.keepsBoot_modPort_off p _ rfl rfl

/-- R116, R117: an entry into FAILED that follows a change of its port, where the change uses up the attempts. -/
theorem State.keepsBoot_modPort_enterFailed (s : State) (p : Port) (f : PortState → PortState)
    (h : (s.port p).bootLegal → (f (s.port p)).StoredLegal ∧ (f (s.port p)).boot.enabled = true
      ∧ (f (s.port p)).attempts = (f (s.port p)).boot.attemptLimit) :
    s.KeepsBoot ((s.modPort p f).enterFailed p) := by
  rw [State.enterFailed_eq]
  refine State.KeepsBoot.trans (.of_port p (by simp) (fun q hq => ?_) fun hs => ?_) (State.keepsBoot_raise _ _ _)
  · rw [State.port_modPort, if_neg hq, State.port_flush, if_neg hq, State.port_modPort, if_neg hq]
  · obtain ⟨hstored, he, heq⟩ := h hs.1
    obtain ⟨hrecord, hlive⟩ := (f (s.port p)).flushCut_record
    obtain ⟨hboot, -, hattempts, -⟩ := PortState.bootRecord_inj hrecord
    rw [State.port_modPort_self, State.port_flush, if_pos rfl, State.port_modPort_self]
    exact (hstored.congr hrecord).enterFailed (by rw [hboot]; exact he) (by rw [hboot, hattempts]; exact heq) hlive
      s.startUp

end Sys2Proof.Machine
end

section
/-! PROOFS. Boot records after each operation: the release of a pulse, the timers that run out, the requests that act
on a record, and SET_BOOT. -/

namespace Sys2Proof.Machine

open Sys2Proof

/-! ## The Boot Supervisor -/

/-- R155: a legal record, with the transaction as it was and the master held only where it was held. -/
theorem PortState.Supervised.of_legal {u : StartUp} {x y : PortState} (h : x.Supervised u) (hl : y.bootLegal)
    (ht : y.transaction = x.transaction) (hh : y.isHeld u = true → x.isHeld u = true) : y.Supervised u :=
  ⟨hl, fun hy => by rw [PortState.hasLive, ht]; exact h.2 (hh hy)⟩

/-- Table 7-2: a record that is not OFF is supervised. -/
theorem PortState.bootLegal.enabled {x : PortState} (h : x.bootLegal) (hs : x.bootState ≠ .off) :
    x.boot.enabled = true := by
  obtain ⟨-, -, -, -, hoff, -⟩ := h
  rw [← Bool.not_eq_false, ← hoff]
  exact hs

/-- Table 7-2: the watchdog runs in RUNNING alone. -/
theorem PortState.bootLegal.running {x : PortState} (h : x.bootLegal) (hw : x.watchdog.isRunning = true) :
    x.bootState = .running := by
  obtain ⟨-, -, -, -, -, -, -, -, -, -, hdog⟩ := h
  exact (hdog.1 hw).1

/-- Table 7-2: outside RUNNING the watchdog is stopped. -/
theorem PortState.bootLegal.no_watchdog {x : PortState} (h : x.bootLegal) (hs : x.bootState ≠ .running) :
    x.watchdog.isRunning = false := (Bool.not_eq_true _).mp (mt h.running hs)

/-- R112: a port that is not supervised is as legal without its pulse. -/
theorem PortState.bootLegal.released {x : PortState} (h : x.bootLegal) (he : x.boot.enabled = false) :
    PortState.bootLegal { x with pulse := .stopped } := by
  obtain ⟨hlimit, hle, hfailed, hrunning, hoff, hdisabled, -, hrest⟩ := h
  have hstate := hoff.2 he
  exact ⟨hlimit, hle, hfailed, hrunning, hoff, hdisabled,
    ⟨fun hheld => absurd (hstate.symm.trans hheld) nofun, fun hp => absurd hp.2 nofun⟩, hrest⟩

/-- R112, R114: a supervised record with attempts left is legal in TRIAL, where a trial is armed, and in UNCONFIRMED: its
boot timer runs, its watchdog does not, and no pulse lasts. -/
theorem PortState.StoredLegal.booting {x : PortState} (h : x.StoredLegal) (hn : x.attempts < x.boot.attemptLimit)
    (he : x.boot.enabled = true) (hp : x.pulse.isRunning = false) (hb : x.bootTimer.isRunning = true)
    (hw : x.watchdog.isRunning = false) (hst : x.bootState = .trial ∧ x.trial ≠ none ∨ x.bootState = .unconfirmed) :
    x.bootLegal := by
  obtain ⟨hlimit, -, htrial⟩ := h
  have hne := Nat.ne_of_lt hn
  rcases hst with ⟨hst, ht⟩ | hst
  · have hslot := htrial.resolve_left ht
    simp [PortState.bootLegal, hlimit, Nat.le_of_lt hn, hne, hslot, he, hp, hb, hw, hst]
  · simp [PortState.bootLegal, hlimit, Nat.le_of_lt hn, hne, htrial, he, hp, hb, hw, hst]

/-- R112, R114: a port released from its pulse. -/
theorem State.keepsBoot_pulseRelease (s : State) (p : Port) (hp : (s.port p).pulse.isRunning = true) :
    s.KeepsBoot (s.pulseRelease p) := by
  have hreleased : ∀ y : PortState, s.pulseRelease p = s.setPort p y → y.transaction = (s.port p).transaction →
      ((s.port p).bootLegal → y.bootLegal) → s.KeepsBoot (s.pulseRelease p) := fun y he ht hl => by
    rw [he]
    refine s.keepsBoot_modPort p (fun _ => y) fun hs => hs.of_legal (hl hs.1) ht fun _ => ?_
    rw [PortState.isHeld, hp, Bool.or_true, Bool.true_or]
  cases he : (s.port p).boot.enabled with
  | false => exact hreleased _ (s.pulseRelease_of_disabled p he) rfl fun hl => hl.released he
  | true =>
    have hstored : ∀ windows st timer, (s.port p).bootLegal →
        PortState.StoredLegal { s.port p with
          pulse := .stopped, windows := windows, bootState := st, bootTimer := timer } := fun _ _ _ hl =>
      ⟨hl.stored.limit, fun hd => absurd (he.symm.trans hd) nofun, hl.stored.trial⟩
    have hheld : (s.port p).bootLegal → (s.port p).attempts < (s.port p).boot.attemptLimit
        ∧ (s.port p).watchdog.isRunning = false := fun hl => by
      obtain ⟨-, -, -, -, -, -, hheld, -⟩ := id hl
      have hstate := hheld.2 ⟨he, hp⟩
      exact ⟨hl.attempts_lt (by rw [hstate]; exact nofun), hl.no_watchdog (by rw [hstate]; exact nofun)⟩
    cases ht : (s.port p).trial with
    | some t =>
      refine hreleased _ (s.pulseRelease_of_enabled p he _ _ _ (.inl ⟨t, ht, rfl, rfl, rfl⟩)) rfl fun hl => ?_
      exact (hstored _ _ _ hl).booting (hheld hl).1 he rfl rfl (hheld hl).2 (.inl ⟨rfl, by rw [ht]; exact nofun⟩)
    | none =>
      refine hreleased _ (s.pulseRelease_of_enabled p he _ _ _ (.inr ⟨ht, rfl, rfl, rfl⟩)) rfl fun hl => ?_
      exact (hstored _ _ _ hl).booting (hheld hl).1 he rfl rfl (hheld hl).2 (.inr rfl)

/-- R115, R116: the boot timer's expiry, by the boot state. -/
theorem State.keepsBoot_bootTimerExpiry (s : State) (p : Port) : s.KeepsBoot (s.bootTimerExpiry p) := by
  unfold State.bootTimerExpiry
  split
  · next hstate =>
    rw [State.raise, State.modPort_modPort]
    refine s.keepsBoot_modPort_pulseStart p _ _ fun hl => ?_
    have he := hl.enabled (by rw [hstate]; exact nofun)
    have hlt := hl.attempts_lt (by rw [hstate]; exact nofun)
    exact ⟨⟨hl.stored.limit, fun hd => absurd (he.symm.trans hd) nofun, .inl rfl⟩, hlt⟩
  · next hstate =>
    have hcount : (s.port p).bootLegal →
        ({ s.port p with attempts := (s.port p).attempts + 1 } : PortState).StoredLegal ∧ (s.port p).boot.enabled = true
        ∧ (s.port p).attempts < (s.port p).boot.attemptLimit := fun hl => by
      have he := hl.enabled (by rw [hstate]; exact nofun)
      exact ⟨⟨hl.stored.limit, fun hd => absurd (he.symm.trans hd) nofun, hl.stored.trial⟩, he,
        hl.attempts_lt (by rw [hstate]; exact nofun)⟩
    dsimp only
    rw [State.port_modPort_self]
    split
    · next hlt =>
      exact s.keepsBoot_modPort_pulseStart p _ _ fun hl => ⟨(hcount hl).1, hlt⟩
    · next hge =>
      refine s.keepsBoot_modPort_enterFailed p _ fun hl => ?_
      obtain ⟨hstored, he, hlt⟩ := hcount hl
      exact ⟨hstored, he, Nat.le_antisymm hlt (Nat.le_of_not_lt hge)⟩
  · exact .refl s

/-- R120: the watchdog started for its period runs exactly where the period is not OFF. -/
theorem WatchdogPeriod.start_isRunning (w : WatchdogPeriod) : w.start.isRunning = true ↔ w ≠ .off := by
  cases w <;> simp [WatchdogPeriod.start, Watchdog.isRunning]

/-- R118, R120, R125: entry into RUNNING of a supervised record with no attempts and no trial slot, outside a pulse. -/
theorem PortState.enterRunning_bootLegal (x : PortState) (hlimit : 1 ≤ x.boot.attemptLimit ∧ x.boot.attemptLimit ≤ 7)
    (hn : x.attempts = 0) (he : x.boot.enabled = true) (hp : x.pulse.isRunning = false)
    (ht : x.trial = none ∨ x.trial = some x.boot.active.other) : x.enterRunning.bootLegal := by
  have hne : 0 ≠ x.boot.attemptLimit := by omega
  simp [PortState.bootLegal, PortState.enterRunning, hlimit, hn, hne, he, hp, ht, WatchdogPeriod.start_isRunning]

/-- R118: a port that enters RUNNING is held only where it was. -/
theorem PortState.isHeld_enterRunning (x : PortState) (u : StartUp) (h : x.enterRunning.isHeld u = true) :
    x.isHeld u = true := by
  have hs : x.enterRunning.isHeld u = (u.isStartingUp || x.pulse.isRunning) := Bool.or_false _
  rw [PortState.isHeld, ← hs, h, Bool.true_or]

/-- Table 7-2: outside HELD no pulse of a supervised port lasts. -/
theorem PortState.bootLegal.no_pulse {x : PortState} (h : x.bootLegal) (he : x.boot.enabled = true)
    (hs : x.bootState ≠ .held) : x.pulse.isRunning = false := by
  obtain ⟨-, -, -, -, -, -, hheld, -⟩ := h
  rw [← Bool.not_eq_true]
  exact fun hp => hs (hheld.2 ⟨he, hp⟩)

theorem State.keepsBoot_setWindow (s : State) (p : Port) (w : Fin 4) (r : Option RegionId) :
    s.KeepsBoot (s.setWindow p w r) := s.keepsBoot_modPort_off p _ rfl rfl

theorem State.keepsBoot_bindBoot (s : State) (p : Port) (w0 w1 : RegionId) : s.KeepsBoot (s.bindBoot p w0 w1) :=
  (s.keepsBoot_setWindow p 0 _).trans (State.keepsBoot_setWindow _ p 1 _)

/-- R118: a confirmation enters RUNNING from UNCONFIRMED, or from TRIAL with the trial slot active. -/
theorem State.keepsBoot_confirm (s : State) (p : Port) : s.KeepsBoot (s.confirm p) := by
  unfold State.confirm
  dsimp only
  split
  · next hstate =>
    refine s.keepsBoot_modPort p _ fun hs => hs.of_legal ?_ rfl (PortState.isHeld_enterRunning (s.port p) _)
    have he := hs.1.enabled (by rw [hstate]; exact nofun)
    exact PortState.enterRunning_bootLegal { s.port p with attempts := 0 } hs.1.stored.limit rfl he
      (hs.1.no_pulse he (by rw [hstate]; exact nofun)) hs.1.stored.trial
  · next t hstate htrial =>
    refine State.KeepsBoot.trans (State.KeepsBoot.trans (s.keepsBoot_modPort p _ fun hs => hs.of_legal ?_ rfl ?_)
      (State.keepsBoot_bindBoot _ p _ _)) (.of_ports rfl fun _ => rfl)
    · have he := hs.1.enabled (by rw [hstate]; exact nofun)
      exact PortState.enterRunning_bootLegal
        { s.port p with attempts := 0, trial := none, boot := { (s.port p).boot with active := t } } hs.1.stored.limit rfl he
        (hs.1.no_pulse he (by rw [hstate]; exact nofun)) (.inl rfl)
    · exact PortState.isHeld_enterRunning (s.port p) _
  · exact .refl s

/-- R120: a watchdog that runs and goes on running. -/
theorem State.keepsBoot_watchdog (s : State) (p : Port) (f : PortState → PortState)
    (hold : (s.port p).watchdog.isRunning = true) (hnew : (f (s.port p)).watchdog.isRunning = true)
    (hr : (f (s.port p)).bootRecord = { s.port p with watchdog := (f (s.port p)).watchdog }.bootRecord)
    (ht : (f (s.port p)).transaction = (s.port p).transaction) : s.KeepsBoot (s.modPort p f) := by
  refine s.keepsBoot_modPort p f fun hs => hs.of_legal ?_ ht fun hh => ?_
  · refine PortState.bootLegal_congr hr ?_
    have hl := hs.1
    rw [PortState.bootLegal, hold] at hl
    rw [PortState.bootLegal, hnew]
    exact hl
  · rw [PortState.isHeld_congr hr] at hh
    exact hh

theorem State.keepsBoot_serviceCode (s : State) (p : Port) (code : Byte) : s.KeepsBoot (s.serviceCode p code) := by
  unfold State.serviceCode
  split
  · exact .refl s
  · next ms half hw =>
    have hruns : (s.port p).watchdog.isRunning = true := by rw [hw]; rfl
    split
    · exact s.keepsBoot_watchdog p _ hruns rfl rfl rfl
    · exact s.keepsBoot_pulseStart p _ fun hl => by rw [hl.running hruns]; exact nofun

theorem State.keepsBoot_watchdogHalf (s : State) (p : Port) : s.KeepsBoot (s.watchdogHalf p) := by
  unfold State.watchdogHalf
  split
  · next ms hw => exact (s.keepsBoot_watchdog p _ (by rw [hw]; rfl) rfl rfl rfl).trans (State.keepsBoot_raise _ p _)
  · exact .refl s

/-- R122: the pulse of a watchdog that has run out. -/
theorem State.keepsBoot_watchdogExpiry (s : State) (p : Port) (h : (s.port p).watchdog.isRunning = true) :
    s.KeepsBoot (s.pulseStart p (some .watchdog)) :=
  s.keepsBoot_pulseStart p _ fun hl => by rw [hl.running h]; exact nofun

/-- R124: a RESET_MASTER gives a FAILED record its attempts back before the pulse. -/
theorem State.keepsBoot_resetMaster (s : State) (p : Port) : s.KeepsBoot (s.resetMaster p) := by
  unfold State.resetMaster
  split
  · next hfailed =>
    refine s.keepsBoot_modPort_pulseStart p _ _ fun hl => ?_
    have he := hl.enabled (by rw [hfailed]; exact nofun)
    exact ⟨⟨hl.stored.limit, fun hd => absurd (he.symm.trans hd) nofun, hl.stored.trial⟩, hl.stored.limit.1⟩
  · next hne => exact s.keepsBoot_pulseStart p _ fun _ => hne

/-! ## SET_BOOT (R125, R126) -/

/-- R125: a record enabled during a pulse is HELD. -/
theorem PortState.held_bootLegal (x : PortState) (hlimit : 1 ≤ x.boot.attemptLimit ∧ x.boot.attemptLimit ≤ 7)
    (hn : x.attempts = 0) (he : x.boot.enabled = true) (hp : x.pulse.isRunning = true) (ht : x.trial = none)
    (hb : x.bootTimer.isRunning = false) (hw : x.watchdog.isRunning = false) :
    PortState.bootLegal { x with bootState := .held } := by
  have hne : 0 ≠ x.boot.attemptLimit := by omega
  simp [PortState.bootLegal, hlimit, hn, hne, he, hp, ht, hb, hw]

/-- R125: SET_BOOT enables a record that was disabled, whose timers do not run. -/
theorem State.keepsBoot_enableBoot (s : State) (p : Port) (b : StoredBoot) (hd : (s.port p).boot.enabled = false)
    (he : b.enabled = true) (hlimit : 1 ≤ b.attemptLimit ∧ b.attemptLimit ≤ 7) : s.KeepsBoot (s.enableBoot p b) := by
  rw [State.enableBoot_eq]
  refine s.keepsBoot_modPort p (fun _ => _) fun hs => ?_
  obtain ⟨-, -, -, -, hoff, -, -, -, -, htimer, -⟩ := hs.1
  have hstate := hoff.2 hd
  split
  · next hp =>
    refine hs.of_legal ?_ rfl (PortState.isHeld_enterRunning (s.port p) _)
    exact PortState.enterRunning_bootLegal ((s.port p).enabledBoot b) hlimit rfl he
      (by rw [show ((s.port p).enabledBoot b).pulse = (s.port p).pulse from rfl, hp]; rfl) (.inl rfl)
  · next hp =>
    have hruns := (Timer.isRunning_eq_true _).2 hp
    refine hs.of_legal ?_ rfl fun _ => by rw [PortState.isHeld, hruns, Bool.or_true, Bool.true_or]
    refine PortState.held_bootLegal ((s.port p).enabledBoot b) hlimit rfl he hruns rfl ?_ ?_
    · rw [← Bool.not_eq_true, show ((s.port p).enabledBoot b).bootTimer = (s.port p).bootTimer from rfl, htimer, hstate]
      simp
    · exact hs.1.no_watchdog (by rw [hstate]; exact nofun)

/-- R126: SET_BOOT disables a record: OFF, with no attempts, no trial slot and no timer. -/
theorem State.keepsBoot_disableBoot (s : State) (p : Port) (b : StoredBoot) (he : b.enabled = false)
    (hlimit : 1 ≤ b.attemptLimit ∧ b.attemptLimit ≤ 7) : s.KeepsBoot (s.disableBoot p b) := by
  have hne : 0 ≠ b.attemptLimit := by omega
  refine s.keepsBoot_modPort p _ fun hs => hs.of_legal ?_ rfl fun hh => ?_
  · simp [PortState.bootLegal, he, hlimit, hne]
  · have hoff : ((s.startUp.isStartingUp || (s.port p).pulse.isRunning) || false) = true := hh
    rw [Bool.or_false] at hoff
    rw [PortState.isHeld, hoff, Bool.true_or]

theorem State.keepsBoot_setBoot {s t : State} {r : Request} (h : s.setBoot r = some t) : s.KeepsBoot t := by
  obtain ⟨p, b, -, hb, hcase⟩ := (s.setBoot_eq_some t r).1 h
  obtain ⟨-, -, hlimit, -⟩ := (r.storedBoot_eq_some b).1 hb
  have hlimit := ((limitOfByte_eq_some _ _).1 hlimit).2
  rcases hcase with ⟨he, ⟨hd, -⟩, rfl⟩ | ⟨he, rfl⟩
  · exact s.keepsBoot_enableBoot p b hd he hlimit
  · exact s.keepsBoot_disableBoot p b he hlimit

end Sys2Proof.Machine
end

section
/-! PROOFS. Boot records after the operations that leave them alone: requests and their edits, the banks, the writer, and the
steps due inside an event. -/

namespace Sys2Proof.Machine

open Sys2Proof

/-! ## Requests -/

theorem State.keepsBoot_modBank (s : State) (b : BankId) (f : Bank → Bank) : s.KeepsBoot (s.modBank b f) :=
  .of_ports rfl fun _ => rfl

theorem State.keepsBoot_setRegion (s : State) (n : RegionId) (e : RegionEntry) : s.KeepsBoot (s.setRegion n e) :=
  .of_ports rfl fun _ => rfl

theorem State.keepsBoot_complete (s : State) (p : Port) (st : Status) (w : Bool) (data : List Byte) :
    s.KeepsBoot (s.complete p st w data) := by
  unfold State.complete
  split
  · exact .refl s
  · exact s.keepsBoot_modPort_off p _ rfl rfl

theorem State.keepsBoot_completeBare (s : State) (p : Port) (st : Status) : s.KeepsBoot (s.completeBare p st) :=
  s.keepsBoot_complete p st false []

theorem State.keepsBoot_stopDeadline (s : State) (p : Port) : s.KeepsBoot (s.stopDeadline p) :=
  s.keepsBoot_modPort_off p _ rfl rfl

theorem State.keepsBoot_setVerify (s : State) (p : Port) (v : VerifyRecord) : s.KeepsBoot (s.setVerify p v) :=
  s.keepsBoot_modPort_off p _ rfl rfl

theorem State.keepsBoot_join (s : State) (b : BankId) (p : Port) (c : Candidate) : s.KeepsBoot (s.join b p c) :=
  s.keepsBoot_modBank b _

theorem State.keepsBoot_raiseConfigEdits (s : State) (levels : Vector Level 4) (ps : List Port) :
    s.KeepsBoot (s.raiseConfigEdits levels ps) := by
  induction ps generalizing s with
  | nil => exact .refl s
  | cons p rest ih =>
    unfold State.raiseConfigEdits
    split
    · exact ih s
    · exact (s.keepsBoot_raise p _).trans (ih _)

theorem State.keepsBoot_defineRegion {s t : State} {r : Request} (h : s.defineRegion r = some t) : s.KeepsBoot t := by
  obtain ⟨n, -, -, -, -, rfl⟩ := (s.defineRegion_eq_some t r).1 h
  exact s.keepsBoot_setRegion n _

theorem State.keepsBoot_clearRegion {s t : State} {r : Request} (h : s.clearRegion r = some t) : s.KeepsBoot t := by
  obtain ⟨n, -, -, -, -, rfl⟩ := (s.clearRegion_eq_some t r).1 h
  exact s.keepsBoot_setRegion n _

theorem State.keepsBoot_setAccess {s t : State} {r : Request} (h : s.setAccess r = some t) : s.KeepsBoot t := by
  obtain ⟨n, p, new, locked, range, levels, -, -, -, -, ⟨-, rfl⟩ | ⟨-, -, rfl⟩⟩ := (s.setAccess_eq_some t r).1 h
  · exact .refl _
  · exact (s.keepsBoot_setRegion n _).trans (State.keepsBoot_raise _ p _)

theorem State.keepsBoot_bindView {s t : State} {r : Request} (h : s.bindView r = some t) : s.KeepsBoot t := by
  obtain ⟨p, w, target, -, -, -, -, -, ⟨-, rfl⟩ | ⟨-, rfl⟩⟩ := (s.bindView_eq_some t r).1 h
  · exact .refl _
  · exact (s.keepsBoot_setWindow p w _).trans (State.keepsBoot_raise _ p _)

theorem State.keepsBoot_lockRegion {s t : State} {r : Request} (h : s.lockRegion r = some t) : s.KeepsBoot t := by
  obtain ⟨n, locked, range, levels, -, -, ⟨-, rfl⟩ | ⟨-, rfl⟩⟩ := (s.lockRegion_eq_some t r).1 h
  · exact .refl _
  · exact (s.keepsBoot_setRegion n _).trans (State.keepsBoot_raiseConfigEdits _ levels _)

theorem State.keepsBoot_setPortSettings {s t : State} {r : Request} (h : s.setPortSettings r = some t) :
    s.KeepsBoot t := by
  unfold State.setPortSettings at h
  split at h
  · cases h; exact s.keepsBoot_modPort_off _ _ rfl rfl
  · cases h

theorem State.keepsBoot_flushPort {s t : State} {r : Request} (h : s.flushPort r = some t) : s.KeepsBoot t := by
  unfold State.flushPort at h
  split at h
  · cases h
  · split at h
    · cases h
    · cases h; exact s.keepsBoot_flush _

theorem State.keepsBoot_settleEdit (s : State) (p : Port) (o : Option State) (h : ∀ {t}, o = some t → s.KeepsBoot t) :
    s.KeepsBoot (s.settleEdit p o) := by
  cases o with
  | none => exact s.keepsBoot_completeBare p _
  | some t => exact (h rfl).trans (t.keepsBoot_completeBare p _)

theorem State.keepsBoot_carryOut (s : State) (p : Port) (a : Admission) : s.KeepsBoot (s.carryOut p a) := by
  cases a with
  | refused st => exact s.keepsBoot_completeBare p st
  | joins b entry range verify =>
    exact (s.keepsBoot_modPort_off p _ rfl rfl).trans (State.keepsBoot_join _ b p entry)

theorem State.keepsBoot_presentReset (s : State) (p : Port) (r : Request) : s.KeepsBoot (s.presentReset p r) := by
  unfold State.presentReset
  split
  · exact s.keepsBoot_completeBare p _
  · exact (s.keepsBoot_completeBare p _).trans (State.keepsBoot_resetMaster _ _)

/-- R48: the examination of a request leaves the boot records legal, by its kind. -/
theorem State.keepsBoot_examineKind (s : State) (p : Port) (r : Request) : s.KeepsBoot (s.examineKind p r) := by
  unfold State.examineKind
  cases r.kind with
  | read | program | eraseSector | eraseRegion | verify | armTrial => exact s.keepsBoot_carryOut p _
  | defineRegion => exact s.keepsBoot_settleEdit p _ State.keepsBoot_defineRegion
  | clearRegion => exact s.keepsBoot_settleEdit p _ State.keepsBoot_clearRegion
  | setAccess => exact s.keepsBoot_settleEdit p _ State.keepsBoot_setAccess
  | bindView => exact s.keepsBoot_settleEdit p _ State.keepsBoot_bindView
  | lockRegion => exact s.keepsBoot_settleEdit p _ State.keepsBoot_lockRegion
  | setBoot => exact s.keepsBoot_settleEdit p _ State.keepsBoot_setBoot
  | setPort => exact s.keepsBoot_settleEdit p _ State.keepsBoot_setPortSettings
  | flushPort => exact s.keepsBoot_settleEdit p _ State.keepsBoot_flushPort
  | resetMaster => exact s.keepsBoot_presentReset p r
  | storeConfig => exact .of_ports rfl fun _ => rfl

theorem State.keepsBoot_present (s : State) (p : Port) : s.KeepsBoot (s.present p) := by
  unfold State.present
  split
  · next q rest _ _ =>
    have hcurrent : s.KeepsBoot (s.modPort p fun x => { x with queue := rest, current := some q.toCurrent }) :=
      s.keepsBoot_modPort_off p _ rfl rfl
    unfold State.presentQueued
    dsimp only
    split
    · exact hcurrent.trans (State.keepsBoot_completeBare _ p _)
    · split
      · exact hcurrent.trans (State.keepsBoot_completeBare _ p _)
      · exact hcurrent.trans (State.keepsBoot_examineKind _ p _)
  · exact .refl s

/-! ## Banks -/

theorem State.keepsBoot_takeGrant (s : State) (b : BankId) (p : Port) : s.KeepsBoot (s.takeGrant b p) :=
  (s.keepsBoot_modBank b _).trans (State.keepsBoot_stopDeadline _ p)

theorem State.keepsBoot_grantWrite (s : State) (b : BankId) (p : Port) (target : WriteTarget) (chunk : Option Nat) :
    s.KeepsBoot (s.grantWrite b p target chunk) := by
  unfold State.grantWrite
  split
  · exact s.keepsBoot_completeBare p _
  · exact s.keepsBoot_modBank b _

theorem State.keepsBoot_grantVerify (s : State) (b : BankId) (p : Port) (sector : Nat) :
    s.KeepsBoot (s.grantVerify b p sector) := by
  unfold State.grantVerify
  split
  · exact .refl s
  · split
    · exact s.keepsBoot_completeBare p _
    · exact s.keepsBoot_modBank b _

theorem State.keepsBoot_grant (s : State) (b : BankId) (p : Port) (c : Candidate) : s.KeepsBoot (s.grant b p c) := by
  have htake := s.keepsBoot_takeGrant b p
  unfold State.grant
  cases c.target with
  | read first length => exact htake.trans (State.keepsBoot_modBank _ b _)
  | verifyChunk sector => exact htake.trans (State.keepsBoot_grantVerify _ b p sector)
  | program page start data => exact htake.trans (State.keepsBoot_grantWrite _ b p _ _)
  | sectorErase sector => exact htake.trans (State.keepsBoot_grantWrite _ b p _ _)

theorem State.keepsBoot_startWrite (s : State) (b : BankId) (op : WriteOperation) : s.KeepsBoot (s.startWrite b op) := by
  have hmark : ∀ (ps : List Port) (u : State), u.KeepsBoot (u.markDisturbed b op.target.sector ps) := by
    intro ps
    induction ps with
    | nil => exact .refl
    | cons p rest ih =>
      intro u
      unfold State.markDisturbed
      refine State.KeepsBoot.trans ?_ (ih _)
      split
      · exact .refl u
      · split
        · exact u.keepsBoot_setVerify p _
        · exact .refl u
  exact (s.keepsBoot_modBank b _).trans (hmark allPorts _)

/-- R106: a trial is armed where the record is supervised and has none, on its alternate slot. -/
theorem State.keepsBoot_arm (s : State) (range : SectorRange) (a : Arming) (h : s.armStands range a = true) :
    s.KeepsBoot (s.modPort a.target fun x => { x with trial := some a.slot }) := by
  simp only [State.armStands, Bool.and_eq_true, beq_iff_eq] at h
  obtain ⟨⟨⟨⟨he, -⟩, hslot⟩, -⟩, -⟩ := h
  refine s.keepsBoot_modPort a.target _ fun hs => hs.of_legal ?_ rfl id
  obtain ⟨hlimit, hle, hfailed, hrunning, hoff, -, hheld, -, -, hrest⟩ := hs.1
  exact ⟨hlimit, hle, hfailed, hrunning, hoff, fun hd => absurd (he.symm.trans hd) nofun, hheld, nofun,
    .inr (congrArg some hslot.symm), hrest⟩

theorem State.keepsBoot_decideArm (s : State) (p : Port) (v : VerifyRecord) (a : Arming) (digest : Word) :
    s.KeepsBoot (s.decideArm p v a digest) := by
  unfold State.decideArm
  split
  · exact s.keepsBoot_completeBare p _
  · split
    · exact s.keepsBoot_completeBare p _
    · split
      · exact s.keepsBoot_completeBare p _
      · next hstands =>
        rw [Bool.not_eq_true', Bool.not_eq_false] at hstands
        exact (s.keepsBoot_arm v.range a hstands).trans (State.keepsBoot_completeBare _ p _)

theorem State.keepsBoot_returnChunk (s : State) (b : BankId) (p : Port) (v : VerifyRecord) (register : Word) :
    s.KeepsBoot (s.returnChunk b p v register) := by
  unfold State.returnChunk
  split
  · exact (s.keepsBoot_setVerify p _).trans (State.keepsBoot_join _ b p _)
  · split
    · exact s.keepsBoot_complete p _ _ _
    · exact s.keepsBoot_decideArm p v _ _

theorem State.keepsBoot_readComplete (s : State) (b : BankId) (op : ReadOperation) : s.KeepsBoot (s.readComplete b op) := by
  have hdrawn : ∀ n, s.KeepsBoot { (s.modBank b fun k => k.endRead op) with freeCount := n } := fun _ =>
    .of_ports rfl fun _ => rfl
  unfold State.readComplete
  dsimp only
  split
  · exact s.keepsBoot_modBank b _
  · split
    · exact (hdrawn _).trans (State.keepsBoot_complete _ _ _ _ _)
    · split
      · exact hdrawn _
      · exact (hdrawn _).trans (State.keepsBoot_returnChunk _ b _ _ _)

theorem State.keepsBoot_programComplete (s : State) (b : BankId) (owner : Owner) (page start : Nat) (data : List Byte) :
    s.KeepsBoot (s.programComplete b owner page start data) := by
  have hslot : s.KeepsBoot { (s.modBank b fun k => { k with writeSlot := .none }) with
      array := s.array.program page start data } := .of_ports rfl fun _ => rfl
  cases owner with
  | orphan => exact hslot
  | port p => exact hslot.trans (State.keepsBoot_complete _ p _ _ _)

theorem State.keepsBoot_nextErase (s : State) (b : BankId) (p : Port) (chunk : Option Nat) :
    s.KeepsBoot (s.nextErase b p chunk) := by
  unfold State.nextErase
  split
  · split
    · exact s.keepsBoot_join b p _
    · exact s.keepsBoot_completeBare p _
  · exact s.keepsBoot_completeBare p _

theorem State.keepsBoot_eraseComplete (s : State) (b : BankId) (owner : Owner) (sector : Nat) (chunk : Option Nat) :
    s.KeepsBoot (s.eraseComplete b owner sector chunk) := by
  have hslot : s.KeepsBoot { (s.modBank b fun k => { k with writeSlot := .none, suspendCount := 0 }) with
      array := s.array.erase (sector * Config.sectorBytes) Config.sectorBytes } := .of_ports rfl fun _ => rfl
  cases owner with
  | orphan => exact hslot
  | port p => exact hslot.trans (State.keepsBoot_nextErase _ b p chunk)

/-! ## The writer and the end of an event -/

theorem State.keepsBoot_completeWrite (s : State) (image : ConfigImage) : s.KeepsBoot (s.completeWrite image) := by
  have hended : s.KeepsBoot ((s.writeEnded image).raise s.admin .storeDone) :=
    State.KeepsBoot.trans (t := s.writeEnded image) (.of_ports rfl fun _ => rfl) (State.keepsBoot_raise _ _ _)
  rw [State.completeWrite_eq]
  split
  · exact hended.trans (State.keepsBoot_completeBare _ _ _)
  · exact hended

theorem State.keepsBoot_internalStep {s t : State} (h : s.internalStep = some t) : s.KeepsBoot t := by
  rcases State.internalStep_cases h with ⟨p, -, rfl⟩ | ⟨-, rfl⟩ | ⟨b, hb⟩
  · exact s.keepsBoot_present p
  · exact .of_ports rfl fun _ => rfl
  · rcases hb with ⟨op, -, rfl⟩ | ⟨-, p, c, -, rfl⟩ | ⟨-, -, -, rfl⟩ | ⟨-, -, -, -, rfl⟩
    · exact s.keepsBoot_startWrite b op
    · exact s.keepsBoot_grant b p c
    · exact s.keepsBoot_modBank b _
    · exact s.keepsBoot_modBank b _

/-- What is due inside an event leaves the boot records legal. -/
theorem State.keepsBoot_finish (s : State) : s.KeepsBoot s.finish :=
  State.finish_induction s.KeepsBoot (fun _ _ h hi => h.trans (State.keepsBoot_internalStep hi))
    (fun u h => h.trans (.of_ports u.startUp_refreshLed u.port_refreshLed)) s (.refl s)

end Sys2Proof.Machine
end

section
/-! PROOFS. The load of the tables: the image it uses, what it gives each port and region, and the pulses that end
start-up. -/

namespace Sys2Proof.Machine

open Sys2Proof

/-! ## The tables filled (R142, R143) -/

/-- R142, R143: the image that a load uses: the block's where it is valid, the defaults otherwise. -/
def State.loadImage (s : State) : ConfigImage := (validImage s.block).getD (defaultImage s.admin)

/-- R142, R143: the part after the tables are filled, before start-up ends. -/
def State.filled (s : State) : State :=
  match validImage s.block with
  | some i => s.fillTables i
  | none => (s.fillTables (defaultImage s.admin)).raise s.admin .configDefaulted

/-- R142: a port after the tables are filled from an image. -/
theorem State.port_fillTables (s : State) (i : ConfigImage) (p : Port) :
    (s.fillTables i).port p
      = { s.port p with windows := i.windows[p], boot := i.boot[p], settings := i.settings[p] } := by
  simp only [State.fillTables, allPorts, List.foldl_cons, List.foldl_nil, State.fillPort, State.port_modPort]
  fin_cases p <;> rfl

/-- R142: a region after the tables are filled from an image. -/
theorem State.region_fillTables (s : State) (i : ConfigImage) (n : RegionId) :
    (s.fillTables i).region n = (i.regions[n]).stored := by
  show (i.regions.map RegionEntry.stored)[n] = _
  simp

/-- R142, R143: a port after the load's tables: its windows, its boot record and its settings, and CONFIG_DEFAULTED at the
administrator port where the defaults were taken. -/
theorem State.port_filled (s : State) (p : Port) :
    s.filled.port p = { s.port p with
      windows := s.loadImage.windows[p], boot := s.loadImage.boot[p], settings := s.loadImage.settings[p]
      sticky := if validImage s.block = none ∧ p = s.admin then (s.port p).sticky ||| 0x40 else (s.port p).sticky } := by
  unfold State.filled State.loadImage
  cases validImage s.block with
  | some i => exact s.port_fillTables i p
  | none =>
    simp only [State.port_raise, State.port_fillTables, true_and]
    rfl

theorem State.region_filled (s : State) (n : RegionId) : s.filled.region n = (s.loadImage.regions[n]).stored := by
  unfold State.filled State.loadImage
  cases validImage s.block with
  | some i => exact s.region_fillTables i n
  | none => exact s.region_fillTables _ n

/-- R132, R143: the image that a load uses is consistent. -/
theorem State.loadImage_consistent (s : State) : s.loadImage.consistent = true := by
  unfold State.loadImage
  cases hi : validImage s.block with
  | some i =>
    obtain ⟨b, -, hvalid, rfl⟩ := (validImage_eq_some _ i).1 hi
    exact ((Bool.and_eq_true _ _).mp hvalid).2
  | none => exact defaultImage_consistent s.admin

/-! ## The pulses that end start-up (R128) -/

@[simp] theorem State.region_pulseStart (s : State) (p : Port) (cause : Option Cause) (n : RegionId) :
    (s.pulseStart p cause).region n = s.region n := by
  rw [State.pulseStart_eq, State.region_modPort, s.flush_frame p]
  rfl

/-- R128: pulses of distinct ports, one after another. -/
theorem State.foldl_pulseStart (ps : List Port) (hps : ps.Nodup) (s : State) :
    (∀ q, (ps.foldl (fun u p => u.pulseStart p none) s).port q
        = if q ∈ ps then (s.port q).flushCut.pulseStart none else s.port q)
    ∧ (∀ n, (ps.foldl (fun u p => u.pulseStart p none) s).region n = s.region n)
    ∧ (ps.foldl (fun u p => u.pulseStart p none) s).startUp = s.startUp := by
  induction ps generalizing s with
  | nil => exact ⟨fun _ => rfl, fun _ => rfl, rfl⟩
  | cons p rest ih =>
    obtain ⟨hp, hrest⟩ := List.nodup_cons.1 hps
    obtain ⟨hport, hregion, hstartUp⟩ := ih hrest (s.pulseStart p none)
    refine ⟨fun q => ?_, fun n => (hregion n).trans (s.region_pulseStart p none n),
      hstartUp.trans (s.startUp_pulseStart p none)⟩
    rw [List.foldl_cons, hport, State.port_pulseStart]
    by_cases hq : q = p
    · subst hq; rw [if_neg hp, if_pos rfl, if_pos List.mem_cons_self]
    · simp only [List.mem_cons, hq, false_or, if_false]

/-- R142, R144: the load, port by port and region by region. -/
theorem State.loadTables_views (s : State) :
    (∀ p, s.loadTables.port p = (s.filled.port p).flushCut.pulseStart none)
    ∧ (∀ n, s.loadTables.region n = (s.loadImage.regions[n]).stored) ∧ s.loadTables.startUp = .ready := by
  obtain ⟨hport, hregion, hstartUp⟩ := State.foldl_pulseStart allPorts (by decide) { s.filled with startUp := .ready }
  exact ⟨fun p => (hport p).trans (if_pos (mem_allPorts p)), fun n => (hregion n).trans (s.region_filled n), hstartUp⟩

end Sys2Proof.Machine
end

section
/-! PROOFS. Boot records stay legal: bytes of a transaction and its deselect, the load, the resets, and every command. -/

namespace Sys2Proof.Machine

open Sys2Proof

/-! ## Bytes of a transaction and live transactions -/

/-- Bytes on the wire leave the boot records, and no live transaction begins where the master is held. -/
theorem State.OnWire.keepsBoot {p : Port} {s t : State} (h : s.OnWire p t)
    (hl : s.ignoresTransactions p = true → (s.port p).hasLive = false → (t.port p).hasLive = false) : s.KeepsBoot t := by
  obtain ⟨x, n, hx, rfl⟩ := h
  have hport : State.port { s.setPort p x with freeCount := n } p = x := s.port_setPort_self p x
  have hrecord : x.bootRecord = (s.port p).bootRecord := by rw [hx]; rfl
  rw [hport] at hl
  refine .of_port p rfl (fun q hq => (s.port_setPort p q x).trans (if_neg hq)) fun hs => ?_
  rw [hport]
  refine ⟨PortState.bootLegal_congr hrecord hs.1, fun hy => ?_⟩
  rw [PortState.isHeld_congr hrecord] at hy
  exact hl hy (hs.2 hy)

/-- R145: clocked bytes leave the transaction live or not as it was. -/
theorem State.hasLive_clockOut (s : State) (p : Port) (n : Nat) :
    ((s.clockOut p n).port p).hasLive = (s.port p).hasLive := by
  rcases s.clockOut_cases p n with h | ⟨tr, bytes, ht, h⟩ | ⟨tr, head, stream, m, ht, -, h⟩
  · rw [h]
  · rw [h, State.send, State.port_modPort_self, PortState.hasLive, PortState.hasLive, ht]; rfl
  · have hsent : (s.sendStream p tr head stream m).port p
        = ((s.modPort p fun x => { x with stream := some (stream.advance m) }).send p tr
            (head ++ (s.sample (stream.addresses m) s.freeCount).1)).port p := rfl
    rw [h, hsent, State.send, State.port_modPort_self, PortState.hasLive, PortState.hasLive, ht]; rfl

/-- R147: the bytes of its frame leave a transaction live or not as it was. -/
theorem State.hasLive_takeFrame (s : State) (p : Port) (tr : Transaction) (frame : List Byte) (d : Option Decision)
    (ht : (s.port p).transaction = some tr) : ((s.takeFrame p tr frame d).port p).hasLive = (s.port p).hasLive := by
  rw [State.takeFrame, State.port_modPort_self, PortState.hasLive, PortState.hasLive, ht]
  rfl

theorem State.keepsBoot_clockOut (s : State) (p : Port) (n : Nat) : s.KeepsBoot (s.clockOut p n) :=
  (s.clockOut_onWire p n).keepsBoot fun _ h => (s.hasLive_clockOut p n).trans h

theorem State.keepsBoot_passFrame (s : State) (p : Port) (n : Nat) : s.KeepsBoot (s.passFrame p n) := by
  unfold State.passFrame
  split
  · exact .refl s
  · exact s.keepsBoot_clockOut p n

theorem State.keepsBoot_decideFrame (s : State) (p : Port) (frame : List Byte) (d : Decision) :
    s.KeepsBoot (s.decideFrame p frame d) := by
  unfold State.decideFrame
  split
  · exact .refl s
  · next tr ht =>
    exact (s.takeFrame_onWire p tr frame _).keepsBoot fun _ h => (s.hasLive_takeFrame p tr frame _ ht).trans h

theorem State.keepsBoot_endFrame (s : State) (p : Port) (frame : List Byte) (d : Decision) (n : Nat) :
    s.KeepsBoot (s.endFrame p frame d n) := by
  unfold State.endFrame
  split
  · exact (s.keepsBoot_decideFrame p frame d).trans (State.keepsBoot_clockOut _ p n)
  · exact s.keepsBoot_passFrame p _

/-- R147: further bytes of a transaction leave it live or not as it was. -/
theorem State.hasLive_takeBytes (s : State) (p : Port) (tr : Transaction) (bytes : List Byte)
    (ht : (s.port p).transaction = some tr) : ((s.takeBytes p tr bytes).port p).hasLive = (s.port p).hasLive := by
  unfold State.takeBytes
  split
  · exact s.hasLive_takeFrame p tr _ _ ht
  · exact s.hasLive_clockOut p _

theorem State.keepsBoot_takeBytes (s : State) (p : Port) (tr : Transaction) (bytes : List Byte)
    (ht : (s.port p).transaction = some tr) : s.KeepsBoot (s.takeBytes p tr bytes) :=
  (s.takeBytes_onWire p tr bytes).keepsBoot fun _ h => (s.hasLive_takeBytes p tr bytes ht).trans h

theorem State.keepsBoot_openStream (s : State) (p : Port) (stream : Stream) : s.KeepsBoot (s.openStream p stream) :=
  (s.keepsBoot_modPort_off p _ rfl rfl).trans (State.keepsBoot_modBank _ _ _)

theorem State.keepsBoot_closeStream (s : State) (p : Port) : s.KeepsBoot (s.closeStream p) := by
  unfold State.closeStream
  split
  · exact .refl s
  · exact (s.keepsBoot_modPort_off p _ rfl rfl).trans (State.keepsBoot_modBank _ _ _)

theorem State.keepsBoot_cutTransaction (s : State) (p : Port) : s.KeepsBoot (s.cutTransaction p) := by
  rw [State.cutTransaction_eq_modPort]
  exact s.keepsBoot_modPort_same p _ (PortState.sameBoot_cutLive _)

/-! ## The deselect (R151) -/

/-- R151: an effect taken at a port that is not FAILED leaves the boot records legal. -/
theorem State.keepsBoot_takeEffect (s : State) (p : Port) (silenced : Bool) (answered : Nat) (e : Effect)
    (hf : (s.port p).bootState ≠ .failed) : s.KeepsBoot (s.takeEffect p silenced answered e) := by
  have hoff : ∀ f : PortState → PortState, (f (s.port p)).bootRecord = (s.port p).bootRecord →
      (f (s.port p)).transaction = (s.port p).transaction → s.KeepsBoot (s.modPort p f) := s.keepsBoot_modPort_off p
  unfold State.takeEffect
  split
  · exact .refl s
  · exact hoff _ rfl rfl
  · exact hoff _ rfl rfl
  · exact hoff _ rfl rfl
  · exact hoff _ rfl rfl
  · exact hoff _ rfl rfl
  · exact hoff _ rfl rfl
  · exact s.keepsBoot_confirm p
  · exact s.keepsBoot_serviceCode p _
  · exact s.keepsBoot_pulseStart p _ fun _ => hf
  · exact .refl s
  · split
    · exact hoff _ rfl rfl
    · exact .refl s
  · exact .refl s

/-- R155: a port with a live transaction is not FAILED. -/
theorem State.not_failed_of_live {s : State} (h : s.bootRecordsLegal) (p : Port) (hl : (s.port p).hasLive = true) :
    (s.port p).bootState ≠ .failed := fun hf => by
  rw [h.2 p (s.ignoresTransactions_of_failed p hf)] at hl
  cases hl

/-- R151, R152: a deselect leaves the boot records legal: an effect is taken only of a live transaction. -/
theorem State.keepsBoot_deselect {s : State} (h : s.bootRecordsLegal) (p : Port) : s.KeepsBoot (s.deselect p) := by
  have hended : s.KeepsBoot (s.modPort p fun x => { x with selected := false, transaction := none }) :=
    s.keepsBoot_modPort_same p _ ⟨rfl, fun _ => rfl⟩
  unfold State.deselect
  split
  · exact .refl s
  · next tr ht =>
    unfold State.endTransaction
    dsimp only
    split
    · next hlive =>
      have hf : (s.port p).bootState ≠ .failed :=
        State.not_failed_of_live h p (by rw [PortState.hasLive, ht, Option.any_some, hlive])
      split
      · exact hended.trans (State.keepsBoot_raise _ p _)
      · refine (hended.trans (State.keepsBoot_closeStream _ p)).trans (State.keepsBoot_takeEffect _ p _ _ _ ?_)
        rw [State.port_closeStream, if_pos rfl, State.port_modPort_self]
        exact hf
    · exact hended

/-! ## Start-up (R140, R142, R144) -/

/-- R109, R140: a blank port has the boot record of a reset. -/
theorem PortState.blank_bootRecord {x : PortState} (h : x.blank) : x.bootRecord = (PortState.reset x.causes).bootRecord :=
  (congrArg PortState.bootRecord h.1 :)

/-- R140: the boot records of a blank part are legal, and it has no live transaction. -/
theorem State.Blank.bootRecordsLegal {s : State} (h : s.Blank) : s.bootRecordsLegal :=
  ⟨fun p => PortState.bootLegal_congr (PortState.blank_bootRecord (h.port p)) (PortState.reset_bootLegal _),
    fun p _ => (h.port p).2⟩

/-- R140, R155: a blank part that is not READY. -/
theorem State.Blank.startUpBlank {s : State} (h : s.Blank) : s.startUpBlank := fun _ => ⟨h.bank, h.writer, h.port⟩

/-- R128, R144: the load of a blank part leaves legal boot records: those of a consistent image, HELD where they are
supervised. -/
theorem State.Blank.loadTables_legal {s : State} (h : s.Blank) : s.loadTables.bootRecordsLegal := by
  rw [State.bootRecordsLegal_iff]
  intro p
  obtain ⟨hport, -, -⟩ := s.loadTables_views
  obtain ⟨hrecord, hlive⟩ := (s.filled.port p).flushCut_record
  obtain ⟨-, htrial, hattempts, hstate, -⟩ := PortState.bootRecord_inj (PortState.blank_bootRecord (h.port p))
  have hfits := (s.loadImage.consistent_iff.1 s.loadImage_consistent).fits p
  have hstored : (s.filled.port p).StoredLegal := by
    rw [State.port_filled]
    exact ⟨hfits.limit, fun _ => ⟨hstate, hattempts, htrial⟩, .inl htrial⟩
  have hzero : (s.filled.port p).attempts = 0 := by rw [State.port_filled]; exact hattempts
  obtain ⟨hboot, -, hsame, -⟩ := PortState.bootRecord_inj hrecord
  rw [hport]
  refine (hstored.congr hrecord).pulseStart ?_ hlive none _
  rw [hboot, hsame, hzero]
  exact hstored.limit.1

/-! ## Every command -/

/-- An event leaves the boot records legal, or is the load. -/
theorem State.EventEffect.keepsBoot_or_load {s u : State} {c : Instr} (h : s.EventEffect c u) (hs : s.bootRecordsLegal) :
    s.KeepsBoot u ∨ s.startUp = .loading ∧ u = s.loadTables := by
  cases h with
  | load hl => exact .inr ⟨hl, rfl⟩
  | deselect p bytes tr ht _ =>
    have htaken := s.keepsBoot_takeBytes p tr bytes ht
    exact .inl (htaken.trans (State.keepsBoot_deselect (htaken.legal hs) p))
  | holdLimit p bytes tr ht _ _ =>
    exact .inl (((s.keepsBoot_takeBytes p tr bytes ht).trans (State.keepsBoot_cutTransaction _ p)).trans
      (State.keepsBoot_closeStream _ p))
  | present p _ => exact .inl (s.keepsBoot_present p)
  | expire p b _ _ _ _ => exact .inl ((s.keepsBoot_modBank b _).trans (State.keepsBoot_completeBare _ p _))
  | grantRead b p entry _ _ => exact .inl (s.keepsBoot_grant b p entry)
  | grantWrite b p entry _ _ => exact .inl (s.keepsBoot_grant b p entry)
  | startWrite b op _ => exact .inl (s.keepsBoot_startWrite b op)
  | suspendComplete b op _ => exact .inl (s.keepsBoot_modBank b _)
  | resume b _ => exact .inl (s.keepsBoot_modBank b _)
  | readComplete b op _ => exact .inl (s.keepsBoot_readComplete b op)
  | programComplete b owner page start data _ _ => exact .inl (s.keepsBoot_programComplete b owner page start data)
  | eraseComplete b _ owner sector chunk _ _ => exact .inl (s.keepsBoot_eraseComplete b owner sector chunk)
  | pulseRelease p hp => exact .inl (s.keepsBoot_pulseRelease p hp)
  | bootTimerExpiry p _ => exact .inl (s.keepsBoot_bootTimerExpiry p)
  | watchdogExpiry p hw => exact .inl (s.keepsBoot_watchdogExpiry p hw)
  | beginWrite _ => exact .inl (.of_ports rfl fun _ => rfl)
  | completeWrite image _ => exact .inl (s.keepsBoot_completeWrite image)

/-- An answer leaves the boot records legal, or is a step of start-up, or a reset that leaves the part blank. -/
theorem State.Answer.keepsBoot_or {s t : State} {c : Instr} (h : s.Answer c t) (hs : s.bootRecordsLegal) :
    s.KeepsBoot t ∨ s.startUp ≠ .ready ∧ (s.Blank → t.bootRecordsLegal) ∨ t.Blank := by
  cases h with
  | noEvent => exact .inl (.refl s)
  | powerOnReset | deviceReset | lossOfPower => exact .inr (.inr (s.blank_hardReset _ _))
  | startUpBegin one zero hr =>
    refine .inr (.inl ⟨by rw [hr]; exact nofun, fun hb => ?_⟩)
    exact State.Blank.bootRecordsLegal ⟨hb.bank, hb.writer, hb.port⟩
  | selectUnpowered start _ _ => exact .inl (s.keepsBoot_modPort_off _ _ rfl rfl)
  | deselectIdle p bytes _ => exact .inl (s.keepsBoot_modPort_off p _ rfl rfl)
  | beginsIgnored start _ _ _ =>
    refine .inl ((s.beginTransaction_onWire start.port _ _).keepsBoot fun _ _ => ?_)
    rw [State.beginTransaction, State.port_modPort_self]
    rfl
  | beginsFraming start _ _ hi _ =>
    exact .inl ((s.beginTransaction_onWire start.port _ _).keepsBoot fun hheld _ => absurd (hi.symm.trans hheld) nofun)
  | frame _ p bytes d n _ => exact .inl (s.keepsBoot_endFrame p bytes d n)
  | notReady p a n b _ _ => exact .inl ((s.keepsBoot_modBank b _).trans (State.keepsBoot_endFrame _ p _ _ n))
  | go p a n stream _ _ => exact .inl ((s.keepsBoot_openStream p stream).trans (State.keepsBoot_endFrame _ p _ _ n))
  | pass p a n _ => exact .inl (s.keepsBoot_passFrame p _)
  | untimed p bytes tr ht _ _ => exact .inl (s.keepsBoot_takeBytes p tr bytes ht)
  | markExpired p place q _ _ => exact .inl (s.keepsBoot_modPort_off p _ rfl rfl)
  | watchdogHalf p => exact .inl (s.keepsBoot_watchdogHalf p)
  | event _ u he =>
    rcases he.keepsBoot_or_load hs with hk | ⟨hl, rfl⟩
    · exact .inl (hk.trans u.keepsBoot_finish)
    · exact .inr (.inl ⟨by rw [hl]; exact nofun, fun hb => (State.keepsBoot_finish _).legal hb.loadTables_legal⟩)

/-- Every answer leaves the boot records legal, and a part that is not READY blank. -/
theorem State.Answer.bootRecordsLegal {s t : State} {c : Instr} (h : s.Answer c t) (hblank : s.startUpBlank)
    (hs : s.bootRecordsLegal) : t.startUpBlank ∧ t.bootRecordsLegal := by
  have hanswer := h.keepsBoot_or hs
  by_cases hready : s.startUp = .ready
  · rcases hanswer with hk | ⟨hne, -⟩ | ht
    · exact ⟨fun hne => absurd (hk.startUp.trans hready) hne, hk.legal hs⟩
    · exact absurd hready hne
    · exact ⟨ht.startUpBlank, ht.bootRecordsLegal⟩
  · obtain ⟨hbank, hwriter, hport⟩ := hblank hready
    have hb : s.Blank := ⟨hbank, hwriter, hport⟩
    refine ⟨(t.inPlace_iff.1 (h.inPlace_of_blank hb hready)).1, ?_⟩
    rcases hanswer with hk | ⟨-, hlegal⟩ | ht
    · exact hk.legal hs
    · exact hlegal hb
    · exact ht.bootRecordsLegal

/-- Settles O55, by the answers of all commands. -/
theorem bootRecordsStayLegal : Obligations.BootRecordsStayLegal := by
  intro s t hblank hs hstep
  rcases step_answer s t hstep with rfl | ⟨c, rest, -, hexec⟩
  · exact ⟨hblank, hs⟩
  · exact (exec_answer c _ t hexec).bootRecordsLegal (s := { s with pending := rest }) hblank hs

end Sys2Proof.Machine
end

section
/-! PROOFS. The load as its rules state it: which image is valid, what the defaults are, and each port after its pulse. -/

namespace Sys2Proof.Machine

open Sys2Proof

/-! ## Valid images (R132) -/

/-- R132: the two tests of a stored image. -/
theorem StoredImage.valid_iff (b : StoredImage) :
    b.valid = true ↔ b.check = ~~~(crc32Bytes 0xFFFFFFFF b.image.bytes) ∧ b.image.consistent = true := by
  rw [StoredImage.valid, Bool.and_eq_true, StoredImage.checkPasses, beq_iff_eq]
  rfl

/-- R132: an image that fails a test is not used. -/
theorem validImage_eq_none (b : Option StoredImage)
    (h : ∀ i check, b = some ⟨i, check⟩ → check ≠ ~~~(crc32Bytes 0xFFFFFFFF i.bytes) ∨ i.consistent = false) :
    validImage b = none := by
  refine Option.eq_none_iff_forall_ne_some.2 fun i hi => ?_
  obtain ⟨⟨image, check⟩, rfl, hvalid, -⟩ := (validImage_eq_some b i).1 hi
  obtain ⟨hcheck, hconsistent⟩ := (StoredImage.valid_iff _).1 hvalid
  rcases h image check rfl with hne | hfalse
  · exact hne hcheck
  · exact Bool.false_ne_true (hfalse.symm.trans hconsistent)

/-- R22, R24, R41, R132: the second test, field by field. -/
theorem ConfigImage.consistent_spelled (i : ConfigImage) : i.consistent = true ↔
    (∀ (n : RegionId) (q : SectorRange), (i.regions[n]).range? = some q →
      1 ≤ q.count ∧ q.count ≤ 1024 ∧ q.first + q.count ≤ 2048 ∧ (q.first + q.count ≤ 1024 ∨ 1024 ≤ q.first))
    ∧ (∀ (n m : RegionId) (q r : SectorRange), n ≠ m → (i.regions[n]).range? = some q →
      (i.regions[m]).range? = some r → q.first + q.count ≤ r.first ∨ r.first + r.count ≤ q.first)
    ∧ (∀ (p : Port) (w : Fin 4) (n : RegionId), (i.windows[p])[w] = some n → i.regions[n] ≠ .unused)
    ∧ ∀ (p : Port) (b : StoredBoot), i.boot[p] = b →
      1 ≤ b.attemptLimit ∧ b.attemptLimit ≤ 7
      ∧ (b.enabled = true →
          b.slotA ≠ b.slotB ∧ i.regions[b.slotA] ≠ .unused ∧ i.regions[b.slotB] ≠ .unused) := by
  have hused : ∀ n : RegionId, i.tables.range n ≠ none ↔ i.regions[n] ≠ .unused := fun n =>
    not_congr (RegionEntry.range?_eq_none _)
  rw [i.consistent_iff]
  constructor
  · rintro ⟨hlegal, hapart, hbound, hfits⟩
    refine ⟨fun n q hq => q.legal_iff.1 (hlegal n q hq),
      fun n m q r hne hq hr => (q.overlaps_eq_false r).1 (hapart n m q r hne hq hr),
      fun p w n hn => (hused n).1 (hbound p w n hn), fun p b hb => ?_⟩
    obtain ⟨⟨hlow, hhigh⟩, hslots⟩ := hfits p
    rw [show i.tables.boot p = b from hb] at hlow hhigh hslots
    refine ⟨hlow, hhigh, fun he => ?_⟩
    obtain ⟨hne, ha, hb⟩ := hslots he
    exact ⟨hne, (hused _).1 ha, (hused _).1 hb⟩
  · rintro ⟨hlegal, hapart, hbound, hfits⟩
    refine ⟨fun n q hq => q.legal_iff.2 (hlegal n q hq),
      fun n m q r hne hq hr => (q.overlaps_eq_false r).2 (hapart n m q r hne hq hr),
      fun p w n hn => (hused n).2 (hbound p w n hn), fun p => ?_⟩
    obtain ⟨hlow, hhigh, hslots⟩ := hfits p _ rfl
    refine ⟨⟨hlow, hhigh⟩, fun he => ?_⟩
    obtain ⟨hne, ha, hb⟩ := hslots he
    exact ⟨hne, (hused _).2 ha, (hused _).2 hb⟩

/-! ## The defaults (R143) -/

/-- R143: the default regions are the two banks, whole, FULL to the administrator port and READ to the others. -/
theorem defaultImage_region (admin : Port) (n : RegionId) :
    ((defaultImage admin).regions[n]).stored
      = if n.val < 2 then
          .inUse false ⟨1024 * n.val, 1024⟩ (Vector.ofFn fun p : Fin 4 => if p = admin then Level.full else Level.read)
        else .unused := by
  revert admin n
  decide +kernel

/-- R143: the default windows, boot record and settings of every port. -/
theorem defaultImage_port (admin p : Port) :
    (defaultImage admin).windows[p] = #v[some 0, some 1, none, none]
    ∧ (defaultImage admin).boot[p] = ⟨false, 0, 1, .a, 3, .s4, .off⟩
    ∧ (defaultImage admin).settings[p] = ⟨true, .off⟩ := by
  simp [defaultImage, StoredBoot.initial, Settings.initial]

/-! ## A port after the load (R128, R144) -/

/-- R154: a port with no live transaction has nothing to cut after its flush. -/
theorem PortState.flushCut_of_not_live (x : PortState) (h : x.hasLive = false) :
    x.flushCut = { x.flush with stream := none } := PortState.cutLive_of_not_live _ (x.sameBoot_flush.live h)

/-- R142, R144: a port with no live transaction after the load. -/
theorem State.port_loadTables (s : State) (p : Port) (h : (s.port p).hasLive = false) :
    s.loadTables.port p = ({ (s.filled.port p).flush with stream := none } : PortState).pulseStart none := by
  obtain ⟨hport, -⟩ := s.loadTables_views
  have hlive : (s.filled.port p).hasLive = false := by rw [State.port_filled]; exact h
  rw [hport, PortState.flushCut_of_not_live _ hlive]

/-- R128, R142, R143: the fields of a port after the load. -/
theorem State.port_loadTables_fields (s : State) (p : Port) (h : (s.port p).hasLive = false) :
    (s.loadTables.port p).windows = s.loadImage.windows[p] ∧ (s.loadTables.port p).boot = s.loadImage.boot[p]
    ∧ (s.loadTables.port p).settings = s.loadImage.settings[p]
    ∧ (s.loadTables.port p).sticky
      = (if validImage s.block = none ∧ p = s.admin then (s.port p).sticky ||| 0x40 else (s.port p).sticky)
    ∧ (s.loadTables.port p).pulse = .running 10 ∧ (s.loadTables.port p).enables = 0
    ∧ (s.loadTables.port p).causes = (s.port p).causes ||| 0 ∧ (s.loadTables.port p).queue = []
    ∧ (s.loadTables.port p).completions = []
    ∧ (s.loadTables.port p).bootState
      = (if s.loadImage.boot[p].enabled = true then .held else (s.port p).bootState) := by
  rw [s.port_loadTables p h, State.port_filled]
  exact ⟨rfl, rfl, rfl, rfl, rfl, rfl, rfl, rfl, rfl, rfl⟩

/-- Settles O6: the tables are those of the image that the load uses, and each port is then flushed and pulsed. -/
theorem loadFillsTheTables : Obligations.LoadFillsTheTables := by
  refine ⟨fun s hs hlive => ?_, fun s hs => if_neg hs, ConfigImage.consistent_spelled⟩
  obtain ⟨-, hregion, hstartUp⟩ := s.loadTables_views
  refine ⟨s.loadTables, if_pos hs, hstartUp, fun i check hblock hcheck hconsistent => ?_, fun hinvalid => ?_, fun p => ?_⟩
  · have hvalid : validImage s.block = some i :=
      (validImage_eq_some _ i).2 ⟨_, hblock, (StoredImage.valid_iff _).2 ⟨hcheck, hconsistent⟩, rfl⟩
    have himage : s.loadImage = i := by rw [State.loadImage, hvalid, Option.getD_some]
    rw [himage] at hregion
    refine ⟨hregion, fun p => ?_⟩
    obtain ⟨hwindows, hboot, hsettings, hsticky, -⟩ := s.port_loadTables_fields p (hlive p)
    rw [himage] at hwindows hboot hsettings
    rw [hvalid, if_neg fun h => Option.some_ne_none i h.1] at hsticky
    exact ⟨hwindows, hboot, hsettings, hsticky⟩
  · have hnone : validImage s.block = none := validImage_eq_none _ hinvalid
    have himage : s.loadImage = defaultImage s.admin := by rw [State.loadImage, hnone, Option.getD_none]
    rw [himage] at hregion
    refine ⟨fun n => (hregion n).trans (defaultImage_region s.admin n), fun p => ?_⟩
    obtain ⟨hwindows, hboot, hsettings, hsticky, -⟩ := s.port_loadTables_fields p (hlive p)
    obtain ⟨hdwindows, hdboot, hdsettings⟩ := defaultImage_port s.admin p
    rw [himage] at hwindows hboot hsettings
    simp only [hnone, true_and] at hsticky
    exact ⟨hwindows.trans hdwindows, hboot.trans hdboot, hsettings.trans hdsettings, hsticky⟩
  · obtain ⟨-, hboot, -, -, hpulse, henables, hcauses, hqueue, hcompletions, hstate⟩ :=
      s.port_loadTables_fields p (hlive p)
    have hruns : (s.loadTables.port p).pulse.isRunning = true := by rw [hpulse]; rfl
    refine ⟨hpulse, henables, hcauses.trans BitVec.or_zero, hqueue, hcompletions, hboot ▸ hstate,
      (State.mrstAsserted_eq _ p).trans (State.ignoresTransactions_of_pulse _ p hruns),
      State.attnAsserted_of_no_enables _ p henables⟩

end Sys2Proof.Machine
end

section
/-! PROOFS. The Boot Supervisor's timers as they run out, and the deselects that act on a boot record. -/

namespace Sys2Proof.Machine

open Sys2Proof

/-! ## The boot timer and the watchdog (R115, R116, R120, R122) -/

/-- R115: a trial that is not confirmed falls back. -/
theorem State.bootTimerExpiry_of_trial (s : State) (p : Port) (h : (s.port p).bootState = .trial) :
    s.bootTimerExpiry p
      = (s.setPort p { s.port p with
          trial := none, sticky := (s.port p).sticky ||| 0x08 }).pulseStart p (some .trialTimeout) := by
  unfold State.bootTimerExpiry
  split
  · rw [State.raise, State.modPort_modPort]
    rfl
  · next h' => cases h.symm.trans h'
  · next h' _ => exact absurd h h'

/-- R116: an unconfirmed boot counts an attempt: a pulse below the limit, FAILED at it. -/
theorem State.bootTimerExpiry_of_unconfirmed (s : State) (p : Port) (h : (s.port p).bootState = .unconfirmed) :
    s.bootTimerExpiry p
      = if (s.port p).attempts + 1 < (s.port p).boot.attemptLimit then
          (s.setPort p { s.port p with attempts := (s.port p).attempts + 1 }).pulseStart p (some .bootTimeout)
        else (s.setPort p { s.port p with attempts := (s.port p).attempts + 1 }).enterFailed p := by
  unfold State.bootTimerExpiry
  split
  · next h' => cases h.symm.trans h'
  · dsimp only
    rw [State.port_modPort_self]
    rfl
  · next h' => exact absurd h h'

/-- Settles O49: the expiry of a running timer, by the boot state. -/
theorem bootTimerAndWatchdogRunOut : Obligations.BootTimerAndWatchdogRunOut := by
  refine ⟨fun p s ms htimer => ?_, fun p s ms => ⟨fun hw => ?_, fun hw => ?_, fun half hw => ?_⟩⟩
  · have hexec : exec (.bootTimerExpiry p) s = .next (s.bootTimerExpiry p).finish := if_pos (by rw [htimer]; rfl)
    rw [hexec]
    refine ⟨fun hs => ?_, fun hs hlt => ?_, fun hs hge => ?_⟩
    · rw [s.bootTimerExpiry_of_trial p hs]
    · rw [s.bootTimerExpiry_of_unconfirmed p hs, if_pos hlt]
    · rw [s.bootTimerExpiry_of_unconfirmed p hs, if_neg (Nat.not_lt.2 hge)]
  · simp only [exec, execWatchdogHalf, State.watchdogHalf, hw, State.raise, State.modPort_modPort]
    rfl
  · simp only [exec, execWatchdogHalf, State.watchdogHalf, hw]
  · exact if_pos (by rw [hw]; rfl)

/-! ## CONFIRM_BOOT and SERVICE against the record as it stands (R118, R120, R121) -/

/-- R118, R120: a confirmation of an active slot's boot. -/
theorem State.confirm_of_unconfirmed (s : State) (p : Port) (h : (s.port p).bootState = .unconfirmed) :
    s.confirm p = s.setPort p { s.port p with
      attempts := 0, bootTimer := .stopped, bootState := .running, expected := .x96
      watchdog := (s.port p).boot.watchdogPeriod.start } := by
  simp only [State.confirm, h]
  rfl

/-- R118, R120, R136: a confirmation of a trial makes its slot the active one and asks for a commit. -/
theorem State.confirm_of_trial (s : State) (p : Port) (slot : Slot) (h : (s.port p).bootState = .trial)
    (ht : (s.port p).trial = some slot) :
    s.confirm p = { (s.setPort p { s.port p with
        attempts := 0, bootTimer := .stopped, bootState := .running, expected := .x96
        watchdog := (s.port p).boot.watchdogPeriod.start
        trial := none
        boot := { (s.port p).boot with active := slot }
        windows := ((s.port p).windows.set 0 (some ((s.port p).boot.slot slot))).set 1
          (some ((s.port p).boot.slot (s.port p).boot.active)) }) with
      writer := { s.writer with commitPending := true } } := by
  simp only [State.confirm, h, ht, State.bindBoot, State.setWindow, State.modPort_modPort]
  rfl

/-- R118: with no boot to confirm nothing happens. -/
theorem State.confirm_of_other (s : State) (p : Port) (hu : (s.port p).bootState ≠ .unconfirmed)
    (ht : (s.port p).bootState ≠ .trial) : s.confirm p = s := by
  unfold State.confirm
  dsimp only
  split
  · next h => exact absurd h hu
  · next h _ => exact absurd h ht
  · rfl

/-- R121: a service code while the watchdog runs: the expected one restarts it, any other starts a pulse. -/
theorem State.serviceCode_of_running (s : State) (p : Port) (code : Byte) (ms : Nat) (half : Bool)
    (h : (s.port p).watchdog = .running ms half) :
    s.serviceCode p code
      = if code = (s.port p).expected.byte then
          s.setPort p { s.port p with watchdog := .running ms false, expected := (s.port p).expected.flip }
        else s.pulseStart p (some .badService) := by
  simp only [State.serviceCode, h]
  rfl

/-- R121: a service code has no effect where the watchdog no longer runs. -/
theorem State.serviceCode_of_stopped (s : State) (p : Port) (code : Byte) (h : (s.port p).watchdog = .stopped) :
    s.serviceCode p code = s := by
  simp only [State.serviceCode, h]

/-- Settles O22: each effect is the supervisor's operation at the deselected port, whose boot record the deselect leaves. -/
theorem deselectOfBootRequests : Obligations.DeselectOfBootRequests := by
  refine ⟨rfl, fun p bytes n s t d ht hi hc hd hs hn => ?_⟩
  rw [exec_deselect_of_decided p bytes n s t d ht hi hc hd hs hn]
  set u := s.setPort p ((s.port p).deselected t n) with hu
  have hport : u.port p = (s.port p).deselected t n := s.port_setPort_self p _
  refine ⟨fun he => ⟨fun hstate => ?_, fun slot hstate htrial => ?_, fun hne hnt => ?_⟩,
    fun code he => ⟨fun ms half hw => ?_, fun hw => ?_⟩, fun he => ?_⟩
  · rw [he, State.takeEffect, u.confirm_of_unconfirmed p (by rw [hport]; exact hstate), hport, hu, State.setPort_setPort]
    rfl
  · rw [he, State.takeEffect, u.confirm_of_trial p slot (by rw [hport]; exact hstate) (by rw [hport]; exact htrial), hport,
      hu, State.setPort_setPort]
    rfl
  · rw [he, State.takeEffect, u.confirm_of_other p (by rw [hport]; exact hne) (by rw [hport]; exact hnt)]
  · have hexpected : (u.port p).expected = (s.port p).expected := by rw [hport]; rfl
    rw [he, State.takeEffect, u.serviceCode_of_running p code ms half (by rw [hport]; exact hw), hexpected]
    refine ⟨fun ⟨hx, hcode⟩ => ?_, fun ⟨hx, hcode⟩ => ?_, fun hcode => ?_⟩
    · rw [hx, hcode, if_pos (show 0x96 = ServiceCode.byte .x96 from rfl), hport, hu, State.setPort_setPort]
      rfl
    · rw [hx, hcode, if_pos (show 0x69 = ServiceCode.byte .x69 from rfl), hport, hu, State.setPort_setPort]
      rfl
    · have hbyte : (s.port p).expected.byte = if (s.port p).expected = .x96 then 0x96 else 0x69 := by
        cases (s.port p).expected <;> rfl
      rw [if_neg (hbyte ▸ hcode)]
  · rw [he, State.takeEffect, u.serviceCode_of_stopped p code (by rw [hport]; exact hw)]
  · rw [he, State.takeEffect]

end Sys2Proof.Machine
end

section
/-! PROOFS. The lines and STLED as the state gives them: MRST, ATTN, the event status, STLED's condition and its refresh, the
pins. -/

namespace Sys2Proof.Machine

open Sys2Proof

/-! ## MRST, ATTN and the event status (R113, R158, R163) -/

/-- R140: the two start-up states in which the part is starting up. -/
theorem StartUp.isStartingUp_iff (u : StartUp) : u.isStartingUp = true ↔ u = .resetTaken ∨ u = .loading := by
  cases u <;> simp [StartUp.isStartingUp]

/-- R113: when MRST is asserted. -/
theorem State.mrstAsserted_iff (s : State) (p : Port) :
    s.mrstAsserted p = true ↔ s.startUp = .resetTaken ∨ s.startUp = .loading ∨ (s.port p).pulse ≠ .stopped
      ∨ (s.port p).bootState = .failed := by
  rw [State.mrstAsserted, Bool.or_eq_true, Bool.or_eq_true, StartUp.isStartingUp_iff, Timer.isRunning_eq_true, beq_iff_eq,
    or_assoc, or_assoc]

/-- R158: COMPLETION is in the event status while the completion list is not empty. -/
theorem PortState.eventStatus_eq (x : PortState) :
    x.eventStatus = if x.completions = [] then x.sticky else x.sticky ||| 0x01 := by
  simp only [PortState.eventStatus, List.isEmpty_iff]
  rfl

/-- Two sets of events have one in common exactly where a bit is in both. -/
theorem byte_and_ne_zero_iff (a b : Byte) : (a &&& b) ≠ 0 ↔ ∃ i, a.getLsbD i = true ∧ b.getLsbD i = true := by
  constructor
  · intro hne
    by_contra hnone
    refine hne (BitVec.eq_of_getLsbD_eq fun i _ => ?_)
    rw [BitVec.getLsbD_and, Bool.eq_false_iff.2 fun h => hnone ⟨i, (Bool.and_eq_true _ _).mp h⟩]
    simp
  · rintro ⟨i, ha, hb⟩ hzero
    have hbit := BitVec.getLsbD_and (x := a) (y := b) (i := i)
    rw [hzero, ha, hb] at hbit
    simp at hbit

/-- R163: when ATTN is asserted. -/
theorem State.attnAsserted_iff (s : State) (p : Port) :
    s.attnAsserted p = true
      ↔ ∃ i, (s.port p).eventStatus.getLsbD i = true ∧ (s.port p).enables.getLsbD i = true := by
  rw [State.attnAsserted, bne_iff_ne, byte_and_ne_zero_iff]

/-! ## STLED (R129, Table 7-3) -/

/-- R171: BOOT_FALLBACK is bit 3 of an event set. -/
theorem PortState.hasSticky_bootFallback (x : PortState) : x.hasSticky .bootFallback = x.sticky.getLsbD 3 := by
  have hbit : ∀ b : Byte, (b &&& 0x08 != 0) = b.getLsbD 3 := by decide
  exact hbit x.sticky

/-- R129: whether any port is in a boot state. -/
theorem State.anyInState_iff (s : State) (st : BootState) : s.anyInState st = true ↔ ∃ q, (s.port q).bootState = st := by
  simp only [State.anyInState, List.any_eq_true, beq_iff_eq]
  exact ⟨fun ⟨q, _, h⟩ => ⟨q, h⟩, fun ⟨q, h⟩ => ⟨q, mem_allPorts q, h⟩⟩

/-- R129: whether any port has fallen back. -/
theorem State.anyFallback_iff (s : State) :
    (allPorts.any fun q => (s.port q).hasSticky .bootFallback) = true ↔ ∃ q, (s.port q).sticky.getLsbD 3 = true := by
  simp only [List.any_eq_true, PortState.hasSticky_bootFallback]
  exact ⟨fun ⟨q, _, h⟩ => ⟨q, h⟩, fun ⟨q, h⟩ => ⟨q, mem_allPorts q, h⟩⟩

/-- R129, Table 7-3: the conditions of a READY part, the most severe first. -/
theorem State.ledCondition_of_ready (s : State) (h : s.startUp = .ready) :
    s.ledCondition
      = if ∃ q, (s.port q).bootState = .failed then .steady
        else if ∃ q, (s.port q).sticky.getLsbD 3 = true then .blink4Hz
        else if ∃ q, (s.port q).bootState = .trial ∨ (s.port q).bootState = .unconfirmed then .blink1Hz
        else .off := by
  have hu : (s.startUp == .unpowered) = false := by rw [h]; rfl
  have hs : s.startUp.isStartingUp = false := by rw [h]; rfl
  simp only [State.ledCondition, hu, hs, Bool.false_eq_true, if_false, Bool.or_eq_true, State.anyInState_iff,
    State.anyFallback_iff, exists_or]

/-- R129: the refresh, where the condition changes. -/
theorem State.refreshLed_of_changed (s : State) (h : s.ledCondition ≠ s.led.display) :
    s.refreshLed = { s with led := ⟨s.ledCondition, decide (s.ledCondition ≠ .off)⟩ } := by
  rw [State.refreshLed, if_neg h]
  cases s.ledCondition <;> rfl

/-- Settles O51: each line by its definition, read as a condition on the state. -/
theorem linesFollowTheState : Obligations.LinesFollowTheState := by
  intro s p
  refine ⟨s.mrstAsserted_iff p, (s.port p).eventStatus_eq, s.attnAsserted_iff p, fun hu => ?_, fun hu => ?_, fun hu => ?_,
    ⟨s.display_refreshLed, fun h => if_pos h, s.refreshLed_of_changed⟩, fun hu => ?_, fun hu => ?_⟩
  · rcases hu with hu | hu <;> simp [State.ledCondition, hu, StartUp.isStartingUp]
  · simp [State.ledCondition, hu]
  · rw [s.ledCondition_of_ready hu]
    refine ⟨fun hf => if_pos hf, fun hf => ?_⟩
    rw [if_neg fun ⟨q, hq⟩ => hf q hq]
    refine ⟨fun hb => if_pos hb, fun hb => ?_⟩
    rw [if_neg fun ⟨q, hq⟩ => Bool.false_ne_true ((hb q).symm.trans hq)]
    exact ⟨fun ht => if_pos ht, fun ht => if_neg fun ⟨q, hq⟩ => hq.elim (ht q).1 (ht q).2⟩
  · simp only [State.mrstPin, State.attnPin, State.stledPin, State.sdoDriven, if_neg hu]
    simp [hu]
  · simp [State.mrstPin, State.attnPin, State.stledPin, State.sdoDriven, hu]

end Sys2Proof.Machine
end

section
/-! PROOFS. The configuration block: what begins a write of it, what the snapshot holds, and what its completion stores. -/

namespace Sys2Proof.Machine

open Sys2Proof

/-! ## A write of the block (R131, R134, R137) -/

/-- R134, R137: a write of the block is due beside an IDLE writer with a mark. -/
theorem State.writeDue_eq_true (s : State) : s.writeDue = true
    ↔ s.writer.snapshot = none ∧ (s.writer.waiting = true ∨ s.writer.commitPending = true) := by
  rw [State.writeDue, Bool.and_eq_true, Bool.or_eq_true, Option.isNone_iff_eq_none]

/-- R134: a snapshot's port settings. -/
theorem State.snapshot_settings (s : State) (p : Port) : s.snapshot.settings[p] = (s.port p).settings := by
  simp [State.snapshot, State.port]

/-- R137: the part with a completed write's image in its block, the writer IDLE, before the carried STORE_CONFIG. -/
def State.storedWrite (s : State) (image : ConfigImage) : State :=
  ({ s with block := some image.withCheck, writer := { s.writer with snapshot := none, carried := false } } : State).raise
    s.admin .storeDone

/-- R137: STORE_DONE leaves its port's current request in place. -/
theorem State.current_storedWrite (s : State) (image : ConfigImage) :
    ((s.storedWrite image).port s.admin).current = (s.port s.admin).current := by
  rw [State.storedWrite, State.raise, State.port_modPort_self]
  rfl

/-- R137: a completed write that carries no STORE_CONFIG. -/
theorem State.completeWrite_of_not_carried (s : State) (image : ConfigImage) (h : s.writer.carried = false) :
    s.completeWrite image = s.storedWrite image := by
  rw [State.completeWrite, h]
  rfl

/-- R137: a completed write completes the STORE_CONFIG that it carries. -/
theorem State.completeWrite_of_carried (s : State) (image : ConfigImage) (cur : Current) (h : s.writer.carried = true)
    (hcur : (s.port s.admin).current = some cur) :
    s.completeWrite image = (s.storedWrite image).finished s.admin cur.request .done false [] := by
  rw [← State.completeBare_of_current _ s.admin cur .done ((s.current_storedWrite image).trans hcur),
    State.completeWrite, h]
  rfl

/-- R137: the completion of the write in progress. -/
theorem exec_configurationWriteComplete (s : State) (image : ConfigImage) (h : s.writer.snapshot = some image) :
    exec .configurationWriteComplete s = .next (s.completeWrite image).finish := by
  simp only [exec, execConfigurationWriteComplete, h]

/-- Settles O50: the beginning by the marks, the snapshot field by field, and the completion with and without a carried
STORE_CONFIG. -/
theorem configurationWriteBeginsAndCompletes : Obligations.ConfigurationWriteBeginsAndCompletes := by
  refine ⟨fun s hidle hmark => if_pos (s.writeDue_eq_true.2 ⟨hidle, hmark⟩), fun s p => ?_, fun s u image himage hu => ?_⟩
  · obtain ⟨hregion, hwindows, hboot⟩ := s.snapshot_fields
    refine ⟨fun n => ?_, hwindows p, hboot p, s.snapshot_settings p⟩
    rw [hregion n]
    cases s.region n <;> rfl
  · obtain rfl : u = s.storedWrite image := hu
    rw [exec_configurationWriteComplete s image himage]
    exact ⟨fun hfree => by rw [s.completeWrite_of_not_carried image hfree],
      fun cur hcarried hcur => by rw [s.completeWrite_of_carried image cur hcarried hcur]⟩

end Sys2Proof.Machine
end

section
/-! PROOFS. The administrator port over every command: the straps name it as start-up begins, and every other operation
leaves it as it was. -/

namespace Sys2Proof.Machine

open Sys2Proof

/-! ## Requests and streams -/

@[simp] theorem State.admin_complete (s : State) (p : Port) (st : Status) (w : Bool) (data : List Byte) :
    (s.complete p st w data).admin = s.admin := by
  obtain ⟨x, hx⟩ := s.complete_frame p st w data
  rw [hx]
  rfl

@[simp] theorem State.admin_completeBare (s : State) (p : Port) (st : Status) : (s.completeBare p st).admin = s.admin :=
  s.admin_complete p st false []

@[simp] theorem State.admin_closeStream (s : State) (p : Port) : (s.closeStream p).admin = s.admin :=
  (congrArg State.admin (s.closeStream_frame p)).trans rfl

@[simp] theorem State.admin_cutTransaction (s : State) (p : Port) : (s.cutTransaction p).admin = s.admin := by
  rw [State.cutTransaction_eq_modPort]
  rfl

/-- Bytes on the wire leave the administrator port alone. -/
theorem State.OnWire.admin {p : Port} {s t : State} (h : s.OnWire p t) : t.admin = s.admin := by
  obtain ⟨x, n, -, rfl⟩ := h
  rfl

/-! ## The Boot Supervisor -/

@[simp] theorem State.admin_pulseStart (s : State) (p : Port) (cause : Option Cause) :
    (s.pulseStart p cause).admin = s.admin := by
  rw [State.pulseStart_eq]
  exact s.admin_flush p

@[simp] theorem State.admin_enterFailed (s : State) (p : Port) : (s.enterFailed p).admin = s.admin := by
  rw [State.enterFailed_eq]
  exact s.admin_flush p

@[simp] theorem State.admin_bootTimerExpiry (s : State) (p : Port) : (s.bootTimerExpiry p).admin = s.admin := by
  unfold State.bootTimerExpiry
  split
  · exact State.admin_pulseStart _ p _
  · dsimp only
    split
    · exact State.admin_pulseStart _ p _
    · exact State.admin_enterFailed _ p
  · rfl

@[simp] theorem State.admin_pulseRelease (s : State) (p : Port) : (s.pulseRelease p).admin = s.admin := by
  unfold State.pulseRelease
  dsimp only
  split
  · split <;> rfl
  · rfl

@[simp] theorem State.admin_confirm (s : State) (p : Port) : (s.confirm p).admin = s.admin := by
  unfold State.confirm
  dsimp only
  split <;> rfl

@[simp] theorem State.admin_serviceCode (s : State) (p : Port) (code : Byte) :
    (s.serviceCode p code).admin = s.admin := by
  unfold State.serviceCode
  split
  · rfl
  · split
    · rfl
    · exact s.admin_pulseStart p _

@[simp] theorem State.admin_watchdogHalf (s : State) (p : Port) : (s.watchdogHalf p).admin = s.admin := by
  unfold State.watchdogHalf
  split <;> rfl

@[simp] theorem State.admin_resetMaster (s : State) (p : Port) : (s.resetMaster p).admin = s.admin := by
  rw [State.resetMaster, State.admin_pulseStart]
  split <;> rfl

/-! ## Edits and presentations -/

@[simp] theorem State.admin_raiseConfigEdits (s : State) (levels : Vector Level 4) (ps : List Port) :
    (s.raiseConfigEdits levels ps).admin = s.admin := by
  induction ps generalizing s with
  | nil => rfl
  | cons p rest ih =>
    rw [State.raiseConfigEdits, ih]
    split <;> rfl

theorem State.admin_defineRegion {s t : State} {r : Request} (h : s.defineRegion r = some t) : t.admin = s.admin := by
  obtain ⟨n, -, -, -, -, rfl⟩ := (s.defineRegion_eq_some t r).1 h
  rfl

theorem State.admin_clearRegion {s t : State} {r : Request} (h : s.clearRegion r = some t) : t.admin = s.admin := by
  obtain ⟨n, -, -, -, -, rfl⟩ := (s.clearRegion_eq_some t r).1 h
  rfl

theorem State.admin_setAccess {s t : State} {r : Request} (h : s.setAccess r = some t) : t.admin = s.admin := by
  obtain ⟨n, p, new, locked, range, levels, -, -, -, -, ⟨-, rfl⟩ | ⟨-, -, rfl⟩⟩ := (s.setAccess_eq_some t r).1 h <;> rfl

theorem State.admin_bindView {s t : State} {r : Request} (h : s.bindView r = some t) : t.admin = s.admin := by
  obtain ⟨p, w, target, -, -, -, -, -, ⟨-, rfl⟩ | ⟨-, rfl⟩⟩ := (s.bindView_eq_some t r).1 h <;> rfl

theorem State.admin_lockRegion {s t : State} {r : Request} (h : s.lockRegion r = some t) : t.admin = s.admin := by
  obtain ⟨n, locked, range, levels, -, -, ⟨-, rfl⟩ | ⟨-, rfl⟩⟩ := (s.lockRegion_eq_some t r).1 h
  · rfl
  · exact State.admin_raiseConfigEdits _ levels allPorts

@[simp] theorem State.admin_enableBoot (s : State) (p : Port) (b : StoredBoot) :
    (s.enableBoot p b).admin = s.admin := by
  unfold State.enableBoot
  dsimp only
  split <;> rfl

theorem State.admin_setBoot {s t : State} {r : Request} (h : s.setBoot r = some t) : t.admin = s.admin := by
  obtain ⟨p, b, -, -, ⟨-, -, rfl⟩ | ⟨-, rfl⟩⟩ := (s.setBoot_eq_some t r).1 h
  · exact s.admin_enableBoot p b
  · rfl

theorem State.admin_setPortSettings {s t : State} {r : Request} (h : s.setPortSettings r = some t) :
    t.admin = s.admin := by
  unfold State.setPortSettings at h
  split at h
  · cases h; rfl
  · cases h

theorem State.admin_flushPort {s t : State} {r : Request} (h : s.flushPort r = some t) : t.admin = s.admin := by
  unfold State.flushPort at h
  split at h
  · cases h
  · split at h
    · cases h
    · cases h; exact s.admin_flush _

theorem State.admin_settleEdit (s : State) (p : Port) (o : Option State) (h : ∀ {t}, o = some t → t.admin = s.admin) :
    (s.settleEdit p o).admin = s.admin := by
  cases o with
  | none => exact s.admin_completeBare p _
  | some t => exact (t.admin_completeBare p _).trans (h rfl)

@[simp] theorem State.admin_carryOut (s : State) (p : Port) (a : Admission) : (s.carryOut p a).admin = s.admin := by
  cases a with
  | refused st => exact s.admin_completeBare p st
  | joins b entry range verify => rfl

@[simp] theorem State.admin_presentReset (s : State) (p : Port) (r : Request) :
    (s.presentReset p r).admin = s.admin := by
  unfold State.presentReset
  split
  · exact s.admin_completeBare p _
  · rw [State.admin_resetMaster, State.admin_completeBare]

/-- R48, R49: the examination of a request leaves the administrator port alone, by its kind. -/
@[simp] theorem State.admin_examineKind (s : State) (p : Port) (r : Request) : (s.examineKind p r).admin = s.admin := by
  unfold State.examineKind
  cases r.kind with
  | read | program | eraseSector | eraseRegion | verify | armTrial => exact s.admin_carryOut p _
  | defineRegion => exact s.admin_settleEdit p _ State.admin_defineRegion
  | clearRegion => exact s.admin_settleEdit p _ State.admin_clearRegion
  | setAccess => exact s.admin_settleEdit p _ State.admin_setAccess
  | bindView => exact s.admin_settleEdit p _ State.admin_bindView
  | lockRegion => exact s.admin_settleEdit p _ State.admin_lockRegion
  | setBoot => exact s.admin_settleEdit p _ State.admin_setBoot
  | setPort => exact s.admin_settleEdit p _ State.admin_setPortSettings
  | flushPort => exact s.admin_settleEdit p _ State.admin_flushPort
  | resetMaster => exact s.admin_presentReset p r
  | storeConfig => rfl

@[simp] theorem State.admin_present (s : State) (p : Port) : (s.present p).admin = s.admin := by
  unfold State.present
  split
  · unfold State.presentQueued
    dsimp only
    split
    · exact State.admin_completeBare _ p _
    · split
      · exact State.admin_completeBare _ p _
      · exact State.admin_examineKind _ p _
  · rfl

/-! ## Banks -/

@[simp] theorem State.admin_grantWrite (s : State) (b : BankId) (p : Port) (target : WriteTarget) (chunk : Option Nat) :
    (s.grantWrite b p target chunk).admin = s.admin := by
  unfold State.grantWrite
  split
  · exact s.admin_completeBare p _
  · rfl

@[simp] theorem State.admin_grantVerify (s : State) (b : BankId) (p : Port) (sector : Nat) :
    (s.grantVerify b p sector).admin = s.admin := by
  unfold State.grantVerify
  split
  · rfl
  · split
    · exact s.admin_completeBare p _
    · rfl

/-- R70, R71: a grant leaves the administrator port alone, whatever it grants. -/
@[simp] theorem State.admin_grant (s : State) (b : BankId) (p : Port) (c : Candidate) :
    (s.grant b p c).admin = s.admin := by
  unfold State.grant
  cases c.target with
  | read first length => rfl
  | verifyChunk sector => exact State.admin_grantVerify _ b p sector
  | program page start data => exact State.admin_grantWrite _ b p _ _
  | sectorErase sector => exact State.admin_grantWrite _ b p _ _

@[simp] theorem State.admin_startWrite (s : State) (b : BankId) (op : WriteOperation) :
    (s.startWrite b op).admin = s.admin :=
  (congrArg State.admin (State.markDisturbed_frame _ b _ allPorts)).trans rfl

@[simp] theorem State.admin_decideArm (s : State) (p : Port) (v : VerifyRecord) (a : Arming) (digest : Word) :
    (s.decideArm p v a digest).admin = s.admin := by
  unfold State.decideArm
  split
  · exact s.admin_completeBare p _
  · split
    · exact s.admin_completeBare p _
    · split
      · exact s.admin_completeBare p _
      · exact State.admin_completeBare _ p _

@[simp] theorem State.admin_returnChunk (s : State) (b : BankId) (p : Port) (v : VerifyRecord) (register : Word) :
    (s.returnChunk b p v register).admin = s.admin := by
  unfold State.returnChunk
  split
  · rfl
  · split
    · exact s.admin_complete p _ _ _
    · exact s.admin_decideArm p v _ _

@[simp] theorem State.admin_readComplete (s : State) (b : BankId) (op : ReadOperation) :
    (s.readComplete b op).admin = s.admin := by
  unfold State.readComplete
  dsimp only
  split
  · rfl
  · split
    · exact State.admin_complete _ _ _ _ _
    · split
      · rfl
      · exact State.admin_returnChunk _ b _ _ _

@[simp] theorem State.admin_programComplete (s : State) (b : BankId) (owner : Owner) (page start : Nat)
    (data : List Byte) :
    (s.programComplete b owner page start data).admin = s.admin := by
  cases owner with
  | orphan => rfl
  | port p => exact State.admin_complete _ p _ _ _

@[simp] theorem State.admin_nextErase (s : State) (b : BankId) (p : Port) (chunk : Option Nat) :
    (s.nextErase b p chunk).admin = s.admin := by
  unfold State.nextErase
  split
  · split
    · rfl
    · exact s.admin_completeBare p _
  · exact s.admin_completeBare p _

@[simp] theorem State.admin_eraseComplete (s : State) (b : BankId) (owner : Owner) (sector : Nat) (chunk : Option Nat) :
    (s.eraseComplete b owner sector chunk).admin = s.admin := by
  cases owner with
  | orphan => rfl
  | port p => exact State.admin_nextErase _ b p chunk

/-! ## The Configuration Store -/

@[simp] theorem State.admin_completeWrite (s : State) (image : ConfigImage) :
    (s.completeWrite image).admin = s.admin := by
  unfold State.completeWrite
  dsimp only
  split
  · exact State.admin_completeBare _ s.admin _
  · rfl

/-- R142, R143: the tables filled leave the administrator port alone. -/
@[simp] theorem State.admin_filled (s : State) : s.filled.admin = s.admin := by
  unfold State.filled
  cases validImage s.block <;> rfl

/-- R142, R144: the load leaves the administrator port as the straps named it. -/
@[simp] theorem State.admin_loadTables (s : State) : s.loadTables.admin = s.admin := by
  have hpulses : ∀ (ps : List Port) (u : State), (ps.foldl (fun v p => v.pulseStart p none) u).admin = u.admin := by
    intro ps
    induction ps with
    | nil => exact fun _ => rfl
    | cons p rest ih => exact fun u => (ih _).trans (u.admin_pulseStart p none)
  exact (hpulses allPorts { s.filled with startUp := .ready }).trans s.admin_filled

/-! ## The deselect and the end of an event -/

@[simp] theorem State.admin_takeEffect (s : State) (p : Port) (silenced : Bool) (answered : Nat) (e : Effect) :
    (s.takeEffect p silenced answered e).admin = s.admin := by
  cases e with
  | confirmBoot => exact s.admin_confirm p
  | service code => exact s.admin_serviceCode p code
  | restart => exact s.admin_pulseStart p _
  | fetched n =>
    cases n with
    | none => rfl
    | some n =>
      rw [State.takeEffect]
      split <;> rfl
  | nothing | accept | setLatch | clearLatch | clearEvents | setEnables | clearCauses | stream => rfl

@[simp] theorem State.admin_deselect (s : State) (p : Port) : (s.deselect p).admin = s.admin := by
  unfold State.deselect
  split
  · rfl
  · unfold State.endTransaction
    dsimp only
    split
    · split
      · rfl
      · rw [State.admin_takeEffect, State.admin_closeStream, State.admin_modPort]
    · rfl

theorem State.admin_internalStep {s t : State} (h : s.internalStep = some t) : t.admin = s.admin := by
  rcases State.internalStep_cases h with ⟨p, -, rfl⟩ | ⟨-, rfl⟩ | ⟨b, hb⟩
  · exact s.admin_present p
  · rfl
  · rcases hb with ⟨op, -, rfl⟩ | ⟨-, p, c, -, rfl⟩ | ⟨-, -, -, rfl⟩ | ⟨-, -, -, -, rfl⟩
    · exact s.admin_startWrite b op
    · exact s.admin_grant b p c
    · rfl
    · rfl

/-- What is due inside an event leaves the administrator port alone. -/
@[simp] theorem State.admin_finish (s : State) : s.finish.admin = s.admin :=
  State.finish_induction (fun u => u.admin = s.admin) (fun _ _ hu h => (State.admin_internalStep h).trans hu)
    (fun u hu => u.admin_refreshLed.trans hu) s rfl

/-! ## Every command -/

/-- An event leaves the administrator port alone. -/
theorem State.EventEffect.admin {s u : State} {c : Instr} (h : s.EventEffect c u) : u.admin = s.admin := by
  cases h with
  | load => exact s.admin_loadTables
  | deselect p bytes tr => exact (State.admin_deselect _ p).trans (s.takeBytes_onWire p tr bytes).admin
  | holdLimit p bytes tr =>
    rw [State.admin_closeStream, State.admin_cutTransaction]
    exact (s.takeBytes_onWire p tr bytes).admin
  | present p => exact s.admin_present p
  | expire p b => exact State.admin_completeBare _ p _
  | grantRead b p entry | grantWrite b p entry => exact s.admin_grant b p entry
  | startWrite b op => exact s.admin_startWrite b op
  | suspendComplete | resume | beginWrite => rfl
  | readComplete b op => exact s.admin_readComplete b op
  | programComplete b owner page start data => exact s.admin_programComplete b owner page start data
  | eraseComplete b _ owner sector chunk => exact s.admin_eraseComplete b owner sector chunk
  | pulseRelease p => exact s.admin_pulseRelease p
  | bootTimerExpiry p => exact s.admin_bootTimerExpiry p
  | watchdogExpiry p => exact s.admin_pulseStart p _
  | completeWrite image => exact s.admin_completeWrite image

/-- R141: an answer leaves the administrator port alone, or start-up begins. -/
theorem State.Answer.admin {s t : State} {c : Instr} (h : s.Answer c t) :
    t.admin = s.admin ∨ ∃ one zero, c = .startUpBegin one zero ∧ s.startUp = .resetTaken := by
  cases h with
  | startUpBegin one zero hr => exact .inr ⟨one, zero, rfl, hr⟩
  | noEvent => exact .inl rfl
  | powerOnReset | deviceReset | lossOfPower => exact .inl (State.admin_refreshLed _)
  | selectUnpowered | deselectIdle | beginsIgnored | beginsFraming | markExpired => exact .inl rfl
  | frame _ p bytes d n => exact .inl (s.endFrame_onWire p bytes d n).admin
  | notReady p _ n => exact .inl (State.endFrame_onWire _ p _ _ n).admin
  | go p _ n => exact .inl (State.endFrame_onWire _ p _ _ n).admin
  | pass p => exact .inl (s.passFrame_onWire p _).admin
  | untimed p bytes tr => exact .inl (s.takeBytes_onWire p tr bytes).admin
  | watchdogHalf p => exact .inl (s.admin_watchdogHalf p)
  | event _ u hu => exact .inl (u.admin_finish.trans hu.admin)

/-- R141: the number that the straps spell, ADMSEL1 the more significant. -/
theorem strapPort_val (hi lo : Bool) : (strapPort hi lo).val = 2 * hi.toNat + lo.toNat := by
  cases hi <;> cases lo <;> rfl

/-- Settles O5: the beginning of start-up names the port, and every other answer leaves it. -/
theorem strapsNameTheAdministrator : Obligations.StrapsNameTheAdministrator := by
  refine ⟨fun hi lo s hr => ⟨strapPort hi lo, strapPort_val hi lo, if_pos hr⟩, fun hi lo s hr => if_neg hr,
    fun c s t hexec hne => ?_⟩
  exact (exec_answer c s t hexec).admin.resolve_left hne

end Sys2Proof.Machine
end

section
/-! PROOFS. Transactions from their start to their end: frame commands outside a frame, an unknown opener, the start, and the
deselect and the select-hold limit with no stream open. -/

namespace Sys2Proof.Machine

open Sys2Proof

/-! ## Bytes outside a frame (R145, R147, R153, R155) -/

/-- R147: a frame that its port's transaction does not take. -/
theorem State.endFrame_of_not_taken (s : State) (p : Port) (frame : List Byte) (d : Decision) (n : Nat)
    (h : (s.port p).takesFrame frame = false) : s.endFrame p frame d n = s.passFrame p (frame.length + n) :=
  if_neg (by rw [h]; exact Bool.false_ne_true)

/-- R147: every frame command passes over a transaction that does not take its frame. -/
theorem exec_of_frame_not_taken {c : Instr} {p : Port} {frame : List Byte} {n : Nat} {s : State}
    (hc : frameOf c = some (p, frame, n)) (hwf : c.wf = true) (h : (s.port p).takesFrame frame = false) :
    exec c s = .next (s.passFrame p (frame.length + n)) := by
  have hend : ∀ d, (.next (s.endFrame p frame d n) : Host.Outcome State Fault Refusal)
      = .next (s.passFrame p (frame.length + n)) := fun d => congrArg _ (s.endFrame_of_not_taken p frame d n h)
  cases c with
  | unknownOpener _ b _ =>
    cases hc
    have hunknown : knownOpener b = false := by simpa using (Bool.and_eq_true_iff.1 hwf).1
    exact (if_neg (by rw [hunknown]; exact Bool.false_ne_true)).trans (hend _)
  | directRead _ a _ =>
    cases hc
    simp only [exec, execDirectRead, directReadFrame_eq, h, Bool.false_eq_true, if_false]
  | submit _ f _ =>
    cases hc
    exact (if_pos (Bool.and_eq_true_iff.1 hwf).1).trans (hend _)
  | fetch | readStatus | readPeerStatus | writeEnable | writeDisable | clearEvents | setEventEnables | clearCauses
  | confirmBoot | service | restart =>
    cases hc
    exact hend _
  | _ => cases hc

/-- R147: a transaction that is ignored, cut or decided takes no frame. -/
theorem PortState.takesFrame_of_not_framing {x : PortState} {t : Transaction} (ht : x.transaction = some t)
    (hf : t.isFraming = false) (frame : List Byte) : x.takesFrame frame = false := by
  simp [PortState.takesFrame, ht, hf]

/-- R147: no transaction takes a frame that the bytes it has taken do not begin. -/
theorem PortState.takesFrame_of_other_bytes {x : PortState} {t : Transaction} (ht : x.transaction = some t)
    {frame : List Byte} (hp : ¬ t.frame <+: frame) : x.takesFrame frame = false := by
  have hb : t.frame.isPrefixOf frame = false :=
    Bool.eq_false_iff.2 fun e => hp (by simpa using e)
  simp [PortState.takesFrame, ht, hb]

/-- Bytes passed over by a transaction that takes no more of a frame are clocked (R147). -/
theorem State.passFrame_of_not_framing (s : State) (p : Port) (n : Nat) (t : Transaction)
    (ht : (s.port p).transaction = some t) (hf : t.isFraming = false) : s.passFrame p n = s.clockOut p n := by
  simp [State.passFrame, ht, hf]

/-- Bytes passed over by a transaction that still takes its own frame are no event (log 21). -/
theorem State.passFrame_of_framing (s : State) (p : Port) (n : Nat) (t : Transaction)
    (ht : (s.port p).transaction = some t) (hf : t.isFraming = true) : s.passFrame p n = s := by
  simp [State.passFrame, ht, hf]

/-- With no transaction in progress no byte is passed over (log 2). -/
theorem State.passFrame_of_none (s : State) (p : Port) (n : Nat) (ht : (s.port p).transaction = none) :
    s.passFrame p n = s := by
  simp [State.passFrame, ht, s.clockOut_of_none p n ht]

/-- R145, R153, R155: a transaction answers nothing where it is ignored, cut, silenced or undecided. -/
theorem Transaction.answering_eq_none (t : Transaction)
    (h : t.ignored = true ∨ t.cut = true ∨ t.silenced = true ∨ t.decision = none) : t.answering = none := by
  unfold Transaction.answering
  rcases h with h | h | h | h
  all_goals simp [h]

/-- R145: the last bytes of a decided transaction that still answers. -/
theorem Transaction.lastBytes_of_heard (t : Transaction) (n : Nat) {d : Decision} (hi : t.ignored = false)
    (hc : t.cut = false) (hq : t.silenced = false) (hd : t.decision = some d) :
    t.lastBytes n = answerBytes (d.answer.drop (t.taken - t.frame.length)) n := by
  simp [Transaction.lastBytes, hi, hc, hq, hd]

/-- R145: a framed transaction that has sent n bytes of its answer goes on with the rest. -/
theorem Transaction.lastBytes_of_framed (kind : Option TransactionKind) (frame answer : List Byte) (e : Effect)
    (timer : Timer) (n m : Nat) :
    Transaction.lastBytes ⟨false, false, false, kind, frame, frame.length + n, timer, some ⟨answer, e⟩⟩ m
      = answerBytes (answer.drop n) m := by
  rw [Transaction.lastBytes_of_heard _ m rfl rfl rfl rfl, Nat.add_sub_cancel_left]

/-- Settles O17: a frame command passes over a transaction that does not take its frame, and bytes passed over are clocked or
no event. -/
theorem bytesOutsideAFrameAreOnlyClocked : Obligations.BytesOutsideAFrameAreOnlyClocked := by
  refine ⟨fun c p frame n s hc hwf => ⟨fun hnone => ?_, fun t ht => ⟨fun hout => ?_, fun hi hcut hd hother => ?_⟩⟩,
    fun p n s => ⟨s.clockOut_of_none p n, fun t ht => ⟨fun hfiller => ?_, fun d hi hcut hq hd hs => ?_⟩⟩⟩
  · rw [exec_of_frame_not_taken hc hwf (by simp [PortState.takesFrame, hnone]), s.passFrame_of_none p _ hnone]
  · have hf : t.isFraming = false := t.isFraming_eq_false hout
    rw [exec_of_frame_not_taken hc hwf (PortState.takesFrame_of_not_framing ht hf frame),
      s.passFrame_of_not_framing p _ t ht hf]
  · rw [exec_of_frame_not_taken hc hwf (PortState.takesFrame_of_other_bytes ht hother),
      s.passFrame_of_framing p _ t ht (t.isFraming_eq_true hi hcut hd)]
  · exact s.clockOut_silent p n t ht (t.answering_eq_none hfiller)
  · rw [s.clockOut_of_no_stream p n t ht hs, t.lastBytes_of_heard n hi hcut hq hd]

/-! ## Openers and the lengths of frames (R145 to R148) -/

/-- The thirteen kinds are all listed. -/
theorem TransactionKind.mem_all (k : TransactionKind) : k ∈ TransactionKind.all := by cases k <;> decide

/-- R146: the opener of a kind is known. -/
theorem knownOpener_opener (k : TransactionKind) : knownOpener k.opener = true :=
  List.any_eq_true.2 ⟨k, TransactionKind.mem_all k, beq_self_eq_true _⟩

/-- R146: an opener that no kind has is not known. -/
theorem knownOpener_eq_false {b : Byte} (h : ∀ k : TransactionKind, k.opener ≠ b) : knownOpener b = false :=
  List.any_eq_false.2 fun k _ => by simpa using h k

/-- R145, R146: an opener that no kind has gives its transaction no kind. -/
theorem kindOfFrame_of_unknown {b : Byte} (rest : List Byte) (h : ∀ k : TransactionKind, k.opener ≠ b) :
    kindOfFrame (b :: rest) = none :=
  List.find?_eq_none.2 fun k _ => by simpa using h k

/-- R147: a frame that begins with the opener of a kind is unfinished below the length that its kind has for it. -/
theorem frameUnfinished_opener_iff (k : TransactionKind) (rest : List Byte) :
    frameUnfinished (k.opener :: rest) = true ↔ rest.length + 1 < k.frameLength (k.opener :: rest) := by
  simp [frameUnfinished]

/-- R148: the length of a SUBMIT's frame once its payload length has been taken. -/
theorem TransactionKind.frameLength_submit_of_header (b : Byte) (rest : List Byte) (h : 9 ≤ rest.length) :
    TransactionKind.submit.frameLength (b :: rest)
      = if (rest.getD 7 0).toNat * 256 + (rest.getD 8 0).toNat ≤ 256 then
          11 + ((rest.getD 7 0).toNat * 256 + (rest.getD 8 0).toNat)
        else 10 := by
  have hheader : ¬ (b :: rest).length < 10 := by rw [List.length_cons]; omega
  rw [TransactionKind.frameLength, if_neg hheader]
  rfl

/-- R148: a SUBMIT's frame is longer than what stands before its payload length. -/
theorem TransactionKind.frameLength_submit_of_short (b : Byte) (rest : List Byte) (h : rest.length < 9) :
    TransactionKind.submit.frameLength (b :: rest) = 11 :=
  if_pos (by rw [List.length_cons]; omega)

/-- Settles O8: the frame is taken whole and decided, and its deselect takes no effect. -/
theorem unknownOpenerIsBadFrame : Obligations.UnknownOpenerIsBadFrame := by
  refine ⟨fun p opener n more s hopener hframe hsent hs => ⟨?_, ?_⟩, fun p k n s => if_pos (knownOpener_opener k), rfl⟩
  · have hunknown : ¬ knownOpener opener = true := by rw [knownOpener_eq_false hopener]; exact Bool.false_ne_true
    exact (if_neg hunknown).trans (congrArg _ (s.endFrame_of_inFrame p [opener] hframe unknownDecision n nofun))
  · rw [exec_deselect_of_decided p more more.length _ _ ⟨[0xA3], .nothing⟩
      (by rw [State.framed, State.port_setPort_self]) rfl rfl rfl (by rw [State.framed, State.port_setPort_self]; exact hs) rfl]
    simp only [State.framed, State.takeEffect, PortState.deselected, State.port_setPort_self, State.setPort_setPort, hsent,
      Transaction.lastBytes_of_framed, List.append_assoc, answerBytes_append]
    rfl

/-! ## The start of a transaction (R145, R155) -/

/-- The start of a transaction where the select is inactive and none is in progress, by what the part answers to it. -/
theorem exec_transactionStart_of_idle (p : Port) (bytes : List Byte) (s : State) (hsel : (s.port p).selected = false)
    (ht : (s.port p).transaction = none) :
    exec (.transactionStart ⟨p, bytes⟩) s
      = if s.startUp = .unpowered then .next (s.modPort p fun x => { x with selected := true })
        else if s.ignoresTransactions p = true then
          .next (s.beginTransaction p (ignoredTransaction bytes.length) bytes.length)
        else if frameUnfinished bytes = true then
          .next (s.beginTransaction p (framingTransaction bytes) bytes.length)
        else .next s :=
  if_neg (by simp [hsel, ht])

/-- R113, R155: what holds its master ignores a transaction that begins. -/
theorem State.ignoresTransactions_of_held (s : State) (p : Port) (hu : s.startUp ≠ .unpowered)
    (h : s.startUp ≠ .ready ∨ (s.port p).pulse.isRunning = true ∨ (s.port p).bootState = .failed) :
    s.ignoresTransactions p = true := by
  rcases h with hready | hpulse | hfailed
  · exact State.ignoresTransactions_of_not_ready hready hu p
  · exact s.ignoresTransactions_of_pulse p hpulse
  · exact s.ignoresTransactions_of_failed p hfailed

/-- R155: a READY part frames the transactions of a port with no pulse in progress that is not FAILED. -/
theorem State.ignoresTransactions_of_released (s : State) (p : Port) (hready : s.startUp = .ready)
    (hpulse : (s.port p).pulse = .stopped) (hfailed : (s.port p).bootState ≠ .failed) :
    s.ignoresTransactions p = false := by
  rw [State.ignoresTransactions, hready, hpulse, beq_false_of_ne hfailed]
  rfl

/-- Settles O7: the start by the state of the part and its port, and Table 9-2 row by row. -/
theorem transactionStartBeginsOrIsIgnored : Obligations.TransactionStartBeginsOrIsIgnored := by
  refine ⟨fun p bytes s => ⟨fun hsel ht hu hheld => ?_, fun hsel ht hready hpulse hfailed => ?_, fun hsel ht hu => ?_,
    fun hbusy => ?_⟩, rfl, rfl, fun b rest hb => ⟨kindOfFrame_of_unknown rest hb, ?_⟩,
    fun k rest len hlen => ⟨kindOfFrame_opener k rest, ?_⟩⟩
  · rw [exec_transactionStart_of_idle p bytes s hsel ht, if_neg hu, if_pos (s.ignoresTransactions_of_held p hu hheld)]
    rfl
  · rw [exec_transactionStart_of_idle p bytes s hsel ht, if_neg (by rw [hready]; nofun),
      s.ignoresTransactions_of_released p hready hpulse hfailed, if_neg Bool.false_ne_true]
    exact ⟨fun hunfinished => if_pos hunfinished, fun hcomplete => if_neg (by rw [hcomplete]; exact Bool.false_ne_true)⟩
  · rw [exec_transactionStart_of_idle p bytes s hsel ht, if_pos hu]
    rfl
  · refine if_pos (Bool.or_eq_true_iff.2 (hbusy.imp id fun hne => ?_))
    exact Option.isSome_iff_ne_none.2 hne
  · rw [frameUnfinished, kindOfFrame_of_unknown rest hb]
    rfl
  · rw [frameUnfinished_opener_iff]
    rcases hlen with ⟨hk, rfl⟩ | ⟨hk, rfl⟩ | ⟨hk, rfl⟩ | ⟨rfl, rfl⟩ | ⟨rfl, rfl⟩
    · rcases hk with rfl | rfl
      all_goals exact Iff.rfl
    · rcases hk with rfl | rfl | rfl | rfl | rfl
      all_goals exact Iff.rfl
    · rcases hk with rfl | rfl | rfl | rfl
      all_goals exact Iff.rfl
    · exact Iff.rfl
    · by_cases hshort : rest.length < 9
      · rw [TransactionKind.frameLength_submit_of_short _ rest hshort, if_pos hshort]
        omega
      · rw [TransactionKind.frameLength_submit_of_header _ rest (Nat.le_of_not_lt hshort), if_neg hshort]

/-! ## The deselect (R151, R152, R155) -/

/-- R153, R155: the last bytes of a transaction that is ignored or cut are filler. -/
theorem State.takeBytes_of_ignored_or_cut (s : State) (p : Port) (t : Transaction) (bytes : List Byte)
    (ht : (s.port p).transaction = some t) (h : t.ignored = true ∨ t.cut = true) :
    s.takeBytes p t bytes
      = s.setPort p { s.port p with
          transaction := some { t with taken := t.taken + bytes.length }
          sdo := (s.port p).sdo ++ List.replicate bytes.length Config.filler } := by
  have hframing : t.isFraming = false := t.isFraming_eq_false (h.imp id .inl)
  rw [State.takeBytes, if_neg (by rw [hframing]; exact Bool.false_ne_true)]
  exact s.clockOut_silent p bytes.length t ht (t.answering_eq_none (h.imp id .inl))

/-- R153, R155: a transaction that is ignored or cut is not live. -/
theorem Transaction.isLive_eq_false (t : Transaction) (h : t.ignored = true ∨ t.cut = true) : t.isLive = false := by
  rcases h with h | h
  all_goals simp [Transaction.isLive, h]

/-- R153, R155: a transaction that is neither ignored nor cut is live. -/
theorem Transaction.isLive_eq_true (t : Transaction) (hi : t.ignored = false) (hc : t.cut = false) : t.isLive = true := by
  simp [Transaction.isLive, hi, hc]

/-- R152: bytes that leave a frame unfinished do not complete it. -/
theorem Transaction.completedBy_of_unfinished (t : Transaction) {bytes : List Byte} (hf : t.isFraming = true)
    (h : frameUnfinished (t.frame ++ bytes) = true) : t.completedBy bytes = false := by
  rw [t.completedBy_of_framing bytes hf, h]
  rfl

/-- R147: bytes that do not leave a frame unfinished complete it. -/
theorem Transaction.completedBy_of_whole (t : Transaction) {bytes : List Byte} (hf : t.isFraming = true)
    (h : frameUnfinished (t.frame ++ bytes) = false) : t.completedBy bytes = true := by
  rw [t.completedBy_of_framing bytes hf, h]
  rfl

/-- The deselect of a transaction in progress whose frame the bytes do not complete. -/
theorem exec_deselect_of_not_completed (p : Port) (bytes : List Byte) (s : State) (t : Transaction)
    (ht : (s.port p).transaction = some t) (hb : t.completedBy bytes = false) :
    exec (.deselect p bytes) s = .next ((s.takeBytes p t bytes).deselect p).finish := by
  simp only [exec, execDeselect, ht, hb, Bool.false_eq_true, if_false]

/-- R151, R155: the deselect of a transaction that is not live clears it alone. -/
theorem State.deselect_of_not_live (s : State) (p : Port) (t : Transaction) (ht : (s.port p).transaction = some t)
    (hl : t.isLive = false) :
    s.deselect p = s.setPort p { s.port p with selected := false, transaction := none } := by
  simp only [State.deselect, ht, State.endTransaction, hl, Bool.false_eq_true, if_false, State.modPort]

/-- R152: the deselect of a live transaction whose frame is not complete sets FRAME_ABORT. -/
theorem State.deselect_of_undecided (s : State) (p : Port) (t : Transaction) (ht : (s.port p).transaction = some t)
    (hl : t.isLive = true) (hd : t.decision = none) :
    s.deselect p
      = s.setPort p { s.port p with
          selected := false
          transaction := none
          sticky := (s.port p).sticky ||| 0x02 } := by
  simp only [State.deselect, ht, State.endTransaction, hl, if_true, hd, State.raise, State.modPort_modPort]
  rfl

/-- R145: a transaction whose frame has grown to these bytes and is not complete. -/
def Transaction.grownTo (t : Transaction) (frame : List Byte) : Transaction :=
  { t with kind := kindOfFrame frame, frame := frame, taken := frame.length, decision := none }

/-- R145: the last bytes of a transaction that still takes its frame let the frame grow. -/
theorem State.takeBytes_eq_grownTo (s : State) (p : Port) (t : Transaction) (bytes : List Byte) (hf : t.isFraming = true) :
    s.takeBytes p t bytes
      = s.setPort p { s.port p with
          transaction := some (t.grownTo (t.frame ++ bytes))
          sdo := (s.port p).sdo ++ List.replicate bytes.length Config.filler } :=
  s.takeBytes_of_framing p t bytes hf

/-- Settles O23: the last bytes by whether the transaction takes its frame, and then its end. -/
theorem deselectOfIgnoredCutOrEarly : Obligations.DeselectOfIgnoredCutOrEarly := by
  refine fun p bytes s => ⟨fun hnone => ?_, fun t ht => ⟨fun hdead => ?_, fun hi hc hd => ⟨fun hearly => ?_,
    fun hwhole => ?_⟩⟩⟩
  · simp only [exec, execDeselect, hnone, State.modPort]
  · have hframing : t.isFraming = false := t.isFraming_eq_false (hdead.imp id .inl)
    rw [exec_deselect_of_not_completed p bytes s t ht (t.completedBy_of_not_framing bytes hframing),
      s.takeBytes_of_ignored_or_cut p t bytes ht hdead,
      State.deselect_of_not_live _ p { t with taken := t.taken + bytes.length } (by rw [State.port_setPort_self])
        (t.isLive_eq_false hdead), State.port_setPort_self, State.setPort_setPort]
    rfl
  · have hframing : t.isFraming = true := t.isFraming_eq_true hi hc hd
    rw [exec_deselect_of_not_completed p bytes s t ht (t.completedBy_of_unfinished hframing hearly),
      s.takeBytes_eq_grownTo p t bytes hframing,
      State.deselect_of_undecided _ p (t.grownTo (t.frame ++ bytes)) (by rw [State.port_setPort_self])
        (t.isLive_eq_true hi hc) rfl, State.port_setPort_self, State.setPort_setPort]
    rfl
  · have hcompleted : t.completedBy bytes = true := t.completedBy_of_whole (t.isFraming_eq_true hi hc hd) hwhole
    simp only [exec, execDeselect, ht, hcompleted, if_true]

/-! ## The select-hold limit (R153) -/

/-- The select-hold limit of a transaction in progress whose frame the bytes do not complete. -/
theorem exec_selectHoldLimit_of_not_completed (p : Port) (bytes : List Byte) (s : State) (t : Transaction)
    (ht : (s.port p).transaction = some t) (hb : t.completedBy bytes = false) :
    exec (.selectHoldLimit p bytes) s = .next ((s.takeBytes p t bytes).holdLimit p t) := by
  simp only [exec, execSelectHoldLimit, ht, hb, Bool.false_eq_true, if_false]

/-- R153: the limit of a timed transaction, live with no stream open, cuts it and sets FRAME_ABORT; `clocked` is the
transaction after the last bytes. -/
theorem State.holdLimit_of_no_stream (s : State) (p : Port) (t clocked : Transaction)
    (ht : (s.port p).transaction = some clocked) (hlive : clocked.isLive = true) (htimed : t.holdTimer.isRunning = true)
    (hs : (s.port p).stream = none) :
    s.holdLimit p t
      = (s.setPort p { s.port p with
          transaction := some { clocked with cut := true, holdTimer := .stopped }
          sticky := (s.port p).sticky ||| 0x02 }).finish := by
  rw [State.holdLimit, if_pos htimed, s.cutTransaction_of_live p clocked ht hlive,
    State.closeStream_of_none _ p (by rw [State.port_setPort_self]; exact hs)]
  rfl

/-- Settles O25: the last bytes by whether the transaction takes its frame, and then the cut where it is timed. -/
theorem selectHoldLimitCutsTheTransaction : Obligations.SelectHoldLimitCutsTheTransaction := by
  refine fun p bytes s => ⟨fun hnone => ?_, fun t ht => ⟨fun ms hi hc hms hs => ⟨fun hd => ?_, fun hd hearly => ?_,
    fun hd hwhole => ?_⟩, fun hdead hstopped => ?_⟩⟩
  · simp only [exec, execSelectHoldLimit, hnone]
  · have hframing : t.isFraming = false := t.isFraming_eq_false (.inr (.inr hd))
    rw [exec_selectHoldLimit_of_not_completed p bytes s t ht (t.completedBy_of_not_framing bytes hframing),
      s.takeBytes_of_not_framing p t bytes ht hframing hs,
      State.holdLimit_of_no_stream _ p t { t with taken := t.taken + bytes.length } (by rw [State.port_setPort_self])
        (t.isLive_eq_true hi hc) (by rw [hms]; rfl) (by rw [State.port_setPort_self]; exact hs), State.port_setPort_self,
      State.setPort_setPort]
  · have hframing : t.isFraming = true := t.isFraming_eq_true hi hc hd
    rw [exec_selectHoldLimit_of_not_completed p bytes s t ht (t.completedBy_of_unfinished hframing hearly),
      s.takeBytes_eq_grownTo p t bytes hframing,
      State.holdLimit_of_no_stream _ p t (t.grownTo (t.frame ++ bytes)) (by rw [State.port_setPort_self])
        (t.isLive_eq_true hi hc) (by rw [hms]; rfl) (by rw [State.port_setPort_self]; exact hs),
      State.port_setPort_self, State.setPort_setPort]
    simp only [Transaction.grownTo, List.length_append, hd]
    rfl
  · have hcompleted : t.completedBy bytes = true := t.completedBy_of_whole (t.isFraming_eq_true hi hc hd) hwhole
    simp only [exec, execSelectHoldLimit, ht, hcompleted, if_true]
  · have hframing : t.isFraming = false := t.isFraming_eq_false (hdead.imp id .inl)
    rw [exec_selectHoldLimit_of_not_completed p bytes s t ht (t.completedBy_of_not_framing bytes hframing),
      s.takeBytes_of_ignored_or_cut p t bytes ht hdead, State.holdLimit, hstopped, Timer.isRunning_stopped,
      if_neg Bool.false_ne_true]
    rfl

end Sys2Proof.Machine
end

section
/-! PROOFS. The queue of waiting commands: a step takes its front command, and no command touches the rest of it. -/

namespace Sys2Proof.Machine

open Sys2Proof

/-! ## Requests and streams -/

@[simp] theorem State.pending_refreshLed (s : State) : s.refreshLed.pending = s.pending := by
  obtain ⟨l, h⟩ := s.refreshLed_eq; rw [h]

@[simp] theorem State.pending_complete (s : State) (p : Port) (st : Status) (w : Bool) (data : List Byte) :
    (s.complete p st w data).pending = s.pending := by
  obtain ⟨x, h⟩ := s.complete_frame p st w data; rw [h, State.pending_setPort]

@[simp] theorem State.pending_completeBare (s : State) (p : Port) (st : Status) :
    (s.completeBare p st).pending = s.pending := s.pending_complete p st false []

@[simp] theorem State.pending_closeStream (s : State) (p : Port) : (s.closeStream p).pending = s.pending := by
  rw [s.closeStream_frame p]

@[simp] theorem State.pending_cutTransaction (s : State) (p : Port) : (s.cutTransaction p).pending = s.pending := by
  rw [State.cutTransaction_eq_modPort, State.pending_modPort]

/-- Bytes on the wire leave the waiting commands alone. -/
theorem State.OnWire.pending {p : Port} {s t : State} (h : s.OnWire p t) : t.pending = s.pending := by
  obtain ⟨x, n, -, rfl⟩ := h
  exact s.pending_setPort p x

/-! ## The Boot Supervisor -/

@[simp] theorem State.pending_bindBoot (s : State) (p : Port) (w0 w1 : RegionId) :
    (s.bindBoot p w0 w1).pending = s.pending := rfl

@[simp] theorem State.pending_flush (s : State) (p : Port) : (s.flush p).pending = s.pending := by rw [s.flush_frame p]

@[simp] theorem State.pending_pulseStart (s : State) (p : Port) (cause : Option Cause) :
    (s.pulseStart p cause).pending = s.pending := by
  simp only [State.pulseStart_eq, State.pending_modPort, State.pending_flush]

@[simp] theorem State.pending_enterFailed (s : State) (p : Port) : (s.enterFailed p).pending = s.pending := by
  simp only [State.enterFailed_eq, State.pending_raise, State.pending_modPort, State.pending_flush]

@[simp] theorem State.pending_resetMaster (s : State) (p : Port) : (s.resetMaster p).pending = s.pending := by
  unfold State.resetMaster
  split <;> simp

/-- R112: a release leaves the waiting commands alone, into TRIAL, into UNCONFIRMED and at a port not supervised. -/
@[simp] theorem State.pending_pulseRelease (s : State) (p : Port) : (s.pulseRelease p).pending = s.pending := by
  unfold State.pulseRelease
  dsimp only
  split
  · split <;> simp
  · simp

/-- R115, R116: an expiry of the boot timer leaves the waiting commands alone, in each boot state. -/
@[simp] theorem State.pending_bootTimerExpiry (s : State) (p : Port) : (s.bootTimerExpiry p).pending = s.pending := by
  unfold State.bootTimerExpiry
  split
  · simp
  · dsimp only
    split <;> simp
  · rfl

@[simp] theorem State.pending_watchdogHalf (s : State) (p : Port) : (s.watchdogHalf p).pending = s.pending := by
  unfold State.watchdogHalf
  split <;> simp

@[simp] theorem State.pending_confirm (s : State) (p : Port) : (s.confirm p).pending = s.pending := by
  unfold State.confirm
  dsimp only
  split <;> simp [State.requestCommit]

@[simp] theorem State.pending_serviceCode (s : State) (p : Port) (code : Byte) :
    (s.serviceCode p code).pending = s.pending := by
  unfold State.serviceCode
  split
  · rfl
  · split <;> simp

/-! ## Presentations -/

/-- R125: SET_BOOT enabling a port leaves the waiting commands alone, in and out of a pulse. -/
@[simp] theorem State.pending_enableBoot (s : State) (p : Port) (b : StoredBoot) :
    (s.enableBoot p b).pending = s.pending := by
  unfold State.enableBoot
  dsimp only
  split <;> simp

/-- R33: an administrative request leaves the waiting commands alone where its edit does. -/
theorem State.pending_settleEdit (s : State) (p : Port) (o : Option State) (h : ∀ t, o = some t → t.pending = s.pending) :
    (s.settleEdit p o).pending = s.pending := by
  cases o with
  | none => exact s.pending_completeBare p _
  | some t => exact (t.pending_completeBare p _).trans (h t rfl)

@[simp] theorem State.pending_carryOut (s : State) (p : Port) (a : Admission) :
    (s.carryOut p a).pending = s.pending := by
  cases a with
  | refused st => exact s.pending_completeBare p st
  | joins b entry range verify => rfl

@[simp] theorem State.pending_presentReset (s : State) (p : Port) (r : Request) :
    (s.presentReset p r).pending = s.pending := by
  unfold State.presentReset
  split <;> simp

/-- R48, R49: the examination of a request leaves the waiting commands alone: an edit by what it makes of the part. -/
@[simp] theorem State.pending_examineKind (s : State) (p : Port) (r : Request) :
    (s.examineKind p r).pending = s.pending := by
  unfold State.examineKind
  cases r.kind with
  | read | program | eraseSector | eraseRegion | verify | armTrial => exact s.pending_carryOut p _
  | resetMaster => exact s.pending_presentReset p r
  | storeConfig => rfl
  | defineRegion =>
    refine s.pending_settleEdit p _ fun t h => ?_
    obtain ⟨n, -, -, -, -, rfl⟩ := (s.defineRegion_eq_some t r).1 h
    exact s.pending_setRegion n _
  | clearRegion =>
    refine s.pending_settleEdit p _ fun t h => ?_
    obtain ⟨n, -, -, -, -, rfl⟩ := (s.clearRegion_eq_some t r).1 h
    exact s.pending_setRegion n _
  | setAccess =>
    refine s.pending_settleEdit p _ fun t h => ?_
    obtain ⟨_, _, _, _, _, _, -, -, -, -, ⟨-, rfl⟩ | ⟨-, -, rfl⟩⟩ := (s.setAccess_eq_some t r).1 h <;> simp
  | bindView =>
    refine s.pending_settleEdit p _ fun t h => ?_
    obtain ⟨_, _, _, -, -, -, -, -, ⟨-, rfl⟩ | ⟨-, rfl⟩⟩ := (s.bindView_eq_some t r).1 h <;> simp
  | lockRegion =>
    refine s.pending_settleEdit p _ fun t h => ?_
    obtain ⟨_, _, _, _, -, -, ⟨-, rfl⟩ | ⟨-, rfl⟩⟩ := (s.lockRegion_eq_some t r).1 h
    · rfl
    · rw [State.raiseConfigEdits_frame, State.pending_setRegion]
  | setBoot =>
    refine s.pending_settleEdit p _ fun t h => ?_
    obtain ⟨q, b, -, -, ⟨-, -, rfl⟩ | ⟨-, rfl⟩⟩ := (s.setBoot_eq_some t r).1 h
    · exact s.pending_enableBoot q b
    · exact s.pending_modPort q _
  | setPort =>
    refine s.pending_settleEdit p _ fun t h => ?_
    unfold State.setPortSettings at h
    split at h
    · cases h; exact s.pending_modPort _ _
    · cases h
  | flushPort =>
    refine s.pending_settleEdit p _ fun t h => ?_
    unfold State.flushPort at h
    split at h
    · cases h
    · split at h
      · cases h
      · cases h; exact s.pending_flush _

/-- R48: a presentation leaves the waiting commands alone: the queue it takes from is its port's. -/
@[simp] theorem State.pending_present (s : State) (p : Port) : (s.present p).pending = s.pending := by
  unfold State.present
  split
  · unfold State.presentQueued
    dsimp only
    split
    · simp
    · split <;> simp
  · rfl

/-! ## Banks -/

@[simp] theorem State.pending_join (s : State) (b : BankId) (p : Port) (c : Candidate) :
    (s.join b p c).pending = s.pending := rfl

@[simp] theorem State.pending_setVerify (s : State) (p : Port) (v : VerifyRecord) :
    (s.setVerify p v).pending = s.pending := rfl

@[simp] theorem State.pending_takeGrant (s : State) (b : BankId) (p : Port) :
    (s.takeGrant b p).pending = s.pending := rfl

@[simp] theorem State.pending_enterReadSlot (s : State) (b : BankId) (op : ReadOperation) (d : Option Word) :
    (s.enterReadSlot b op d).pending = s.pending := rfl

@[simp] theorem State.pending_grantWrite (s : State) (b : BankId) (p : Port) (target : WriteTarget)
    (chunk : Option Nat) : (s.grantWrite b p target chunk).pending = s.pending := by
  unfold State.grantWrite
  split <;> simp

@[simp] theorem State.pending_grantVerify (s : State) (b : BankId) (p : Port) (sector : Nat) :
    (s.grantVerify b p sector).pending = s.pending := by
  unfold State.grantVerify
  split
  · rfl
  · split <;> simp

/-- R70, R71: a grant leaves the waiting commands alone, by what it grants. -/
@[simp] theorem State.pending_grant (s : State) (b : BankId) (p : Port) (c : Candidate) :
    (s.grant b p c).pending = s.pending := by
  unfold State.grant
  cases c.target <;> simp

@[simp] theorem State.pending_startWrite (s : State) (b : BankId) (op : WriteOperation) :
    (s.startWrite b op).pending = s.pending := by
  rw [State.startWrite, State.markDisturbed_frame, State.pending_modBank]

/-- R106: the outcome of an ARM_TRIAL leaves the waiting commands alone, at each of its four steps. -/
@[simp] theorem State.pending_decideArm (s : State) (p : Port) (v : VerifyRecord) (a : Arming) (digest : Word) :
    (s.decideArm p v a digest).pending = s.pending := by
  unfold State.decideArm
  split
  · simp
  · split
    · simp
    · split <;> simp

@[simp] theorem State.pending_returnChunk (s : State) (b : BankId) (p : Port) (v : VerifyRecord) (register : Word) :
    (s.returnChunk b p v register).pending = s.pending := by
  unfold State.returnChunk
  split
  · simp
  · split <;> simp

/-- R7: the end of a read leaves the waiting commands alone, for an orphan and for a port by the read's kind. -/
@[simp] theorem State.pending_readComplete (s : State) (b : BankId) (op : ReadOperation) :
    (s.readComplete b op).pending = s.pending := by
  unfold State.readComplete
  dsimp only
  split
  · rfl
  · split
    · simp
    · split <;> simp

@[simp] theorem State.pending_programComplete (s : State) (b : BankId) (owner : Owner) (page start : Nat)
    (data : List Byte) : (s.programComplete b owner page start data).pending = s.pending := by
  cases owner with
  | orphan => rfl
  | port p => exact State.pending_complete _ p _ _ _

@[simp] theorem State.pending_nextErase (s : State) (b : BankId) (p : Port) (chunk : Option Nat) :
    (s.nextErase b p chunk).pending = s.pending := by
  unfold State.nextErase
  split
  · split <;> simp
  · simp

@[simp] theorem State.pending_eraseComplete (s : State) (b : BankId) (owner : Owner) (sector : Nat)
    (chunk : Option Nat) : (s.eraseComplete b owner sector chunk).pending = s.pending := by
  cases owner with
  | orphan => rfl
  | port p => exact State.pending_nextErase _ b p chunk

/-! ## The Configuration Store -/

@[simp] theorem State.pending_completeWrite (s : State) (image : ConfigImage) :
    (s.completeWrite image).pending = s.pending := by
  cases hc : s.writer.carried with
  | false => rw [s.completeWrite_of_not_carried image hc]; rfl
  | true =>
    have hstored : s.completeWrite image = (s.storedWrite image).completeBare s.admin .done := by
      rw [State.completeWrite, hc]; rfl
    rw [hstored, State.pending_completeBare]
    rfl

@[simp] theorem State.pending_filled (s : State) : s.filled.pending = s.pending := by
  unfold State.filled
  split <;> rfl

/-- R144: the pulses that end start-up leave the waiting commands alone. -/
theorem State.pending_foldl_pulseStart (ps : List Port) (s : State) :
    (ps.foldl (fun u p => u.pulseStart p none) s).pending = s.pending := by
  induction ps generalizing s with
  | nil => rfl
  | cons p rest ih => exact (ih _).trans (s.pending_pulseStart p none)

@[simp] theorem State.pending_loadTables (s : State) : s.loadTables.pending = s.pending :=
  (State.pending_foldl_pulseStart allPorts { s.filled with startUp := .ready }).trans s.pending_filled

/-! ## The deselect and the end of an event -/

/-- R151: the effect of a transaction leaves the waiting commands alone, by its kind. -/
@[simp] theorem State.pending_takeEffect (s : State) (p : Port) (silenced : Bool) (answered : Nat) (e : Effect) :
    (s.takeEffect p silenced answered e).pending = s.pending := by
  cases e with
  | confirmBoot => exact s.pending_confirm p
  | service code => exact s.pending_serviceCode p code
  | restart => exact s.pending_pulseStart p _
  | fetched n =>
    cases n with
    | none => rfl
    | some n =>
      rw [State.takeEffect]
      split <;> simp
  | nothing | accept | setLatch | clearLatch | clearEvents | setEnables | clearCauses | stream => rfl

/-- R151, R152: a deselect leaves the waiting commands alone: with no transaction, early-ended, decided or not live. -/
@[simp] theorem State.pending_deselect (s : State) (p : Port) : (s.deselect p).pending = s.pending := by
  unfold State.deselect
  split
  · rfl
  · unfold State.endTransaction
    dsimp only
    split
    · split <;> simp
    · simp

/-- A step due inside an event leaves the waiting commands alone. -/
theorem State.pending_internalStep {s t : State} (h : s.internalStep = some t) : t.pending = s.pending := by
  rcases State.internalStep_cases h with ⟨p, -, rfl⟩ | ⟨-, rfl⟩ | ⟨b, hb⟩
  · exact s.pending_present p
  · rfl
  · rcases hb with ⟨op, -, rfl⟩ | ⟨-, p, c, -, rfl⟩ | ⟨-, -, -, rfl⟩ | ⟨-, -, -, -, rfl⟩
    · exact s.pending_startWrite b op
    · exact s.pending_grant b p c
    · exact s.pending_modBank b _
    · exact s.pending_modBank b _

/-- What is due inside an event leaves the waiting commands alone. -/
@[simp] theorem State.pending_finish (s : State) : s.finish.pending = s.pending :=
  State.finish_induction (fun u => u.pending = s.pending) (fun _ _ hu h => (State.pending_internalStep h).trans hu)
    (fun u hu => u.pending_refreshLed.trans hu) s rfl

/-! ## Every command -/

/-- An event leaves the waiting commands alone. -/
theorem State.EventEffect.pending {s u : State} {c : Instr} (h : s.EventEffect c u) : u.pending = s.pending := by
  cases h with
  | deselect p bytes tr => exact (State.pending_deselect _ p).trans (s.takeBytes_onWire p tr bytes).pending
  | holdLimit p bytes tr =>
    rw [State.pending_closeStream, State.pending_cutTransaction]
    exact (s.takeBytes_onWire p tr bytes).pending
  | expire p b => exact State.pending_completeBare _ p _
  | beginWrite => rfl
  | load | present | grantRead | grantWrite | startWrite | suspendComplete | resume | readComplete | programComplete
  | eraseComplete | pulseRelease | bootTimerExpiry | watchdogExpiry | completeWrite => simp

/-- An answer leaves the waiting commands alone. -/
theorem State.Answer.pending {s t : State} {c : Instr} (h : s.Answer c t) : t.pending = s.pending := by
  cases h with
  | powerOnReset | deviceReset | lossOfPower => exact State.pending_refreshLed _
  | noEvent | startUpBegin | selectUnpowered | deselectIdle | beginsIgnored | beginsFraming | markExpired => rfl
  | frame _ p bytes d n => exact (s.endFrame_onWire p bytes d n).pending
  | notReady p _ n => exact (State.endFrame_onWire _ p _ _ n).pending
  | go p _ n => exact (State.endFrame_onWire _ p _ _ n).pending
  | pass p => exact (s.passFrame_onWire p _).pending
  | untimed p bytes tr => exact (s.takeBytes_onWire p tr bytes).pending
  | watchdogHalf p => exact s.pending_watchdogHalf p
  | event _ u hu => exact u.pending_finish.trans hu.pending

/-- A meaning that answers a next state on both sides of a test answers one. -/
theorem exists_next_of_ite {e : Prop} [Decidable e] {x y : Host.Outcome State Fault Refusal}
    (hx : ∃ t, x = .next t) (hy : ∃ t, y = .next t) : ∃ t, (if e then x else y) = .next t := by
  split
  · exact hx
  · exact hy

/-- Every command answers a next state: at once, on both sides of its test, or in each case of what it looks up. -/
theorem exec_total (c : Instr) (s : State) : ∃ t, exec c s = .next t := by
  cases c with
  | powerOnReset | lossOfPower | fetch | readStatus | readPeerStatus | writeEnable | writeDisable | clearEvents
  | setEventEnables | clearCauses | confirmBoot | service | restart | watchdogHalf => exact ⟨_, rfl⟩
  | deviceReset | startUpBegin | loadComplete | unknownOpener | submit | presentation | resume | pulseRelease
  | bootTimerExpiry | watchdogExpiry | configurationWriteBegin => exact exists_next_of_ite ⟨_, rfl⟩ ⟨_, rfl⟩
  | transactionStart start =>
    exact exists_next_of_ite ⟨_, rfl⟩
      (exists_next_of_ite ⟨_, rfl⟩ (exists_next_of_ite ⟨_, rfl⟩ (exists_next_of_ite ⟨_, rfl⟩ ⟨_, rfl⟩)))
  | directRead p a n =>
    refine exists_next_of_ite ?_ ⟨_, rfl⟩
    cases s.attempt p a <;> exact ⟨_, rfl⟩
  | deselect p bytes =>
    dsimp only [exec, execDeselect]
    split
    · exact ⟨_, rfl⟩
    · exact exists_next_of_ite ⟨_, rfl⟩ ⟨_, rfl⟩
  | selectHoldLimit p bytes =>
    dsimp only [exec, execSelectHoldLimit]
    split
    · exact ⟨_, rfl⟩
    · exact exists_next_of_ite ⟨_, rfl⟩ ⟨_, rfl⟩
  | deadlineExpiry p which =>
    cases which with
    | queued place =>
      dsimp only [exec, execDeadlineExpiry]
      split
      · exact ⟨_, rfl⟩
      · exact exists_next_of_ite ⟨_, rfl⟩ ⟨_, rfl⟩
    | current =>
      dsimp only [exec, execDeadlineExpiry]
      split
      · exact exists_next_of_ite ⟨_, rfl⟩ ⟨_, rfl⟩
      · exact ⟨_, rfl⟩
  | readGrant b =>
    dsimp only [exec, execReadGrant]
    split
    · exact exists_next_of_ite ⟨_, rfl⟩ ⟨_, rfl⟩
    · exact ⟨_, rfl⟩
  | writeGrant b =>
    dsimp only [exec, execWriteGrant]
    split
    · exact exists_next_of_ite ⟨_, rfl⟩ ⟨_, rfl⟩
    · exact ⟨_, rfl⟩
  | writeStart b => dsimp only [exec, execWriteStart]; split <;> exact ⟨_, rfl⟩
  | suspendComplete b => dsimp only [exec, execSuspendComplete]; split <;> exact ⟨_, rfl⟩
  | readComplete b => dsimp only [exec, execReadComplete]; split <;> exact ⟨_, rfl⟩
  | programComplete b => dsimp only [exec, execProgramComplete]; split <;> exact ⟨_, rfl⟩
  | sectorEraseComplete b => dsimp only [exec, execSectorEraseComplete]; split <;> exact ⟨_, rfl⟩
  | configurationWriteComplete => dsimp only [exec, execConfigurationWriteComplete]; split <;> exact ⟨_, rfl⟩

/-- Settles O2: every command answers, and each of its answers leaves the waiting commands alone. -/
theorem everyCommandAnswersANextState : Obligations.EveryCommandAnswersANextState := by
  intro c s
  obtain ⟨t, h⟩ := exec_total c s
  exact ⟨t, h, (exec_answer c s t h).pending⟩

/-! ## A step -/

/-- Log 1: with no command waiting the part idles. -/
theorem step_of_no_pending (s : State) (h : s.pending = []) : step s = .next s := by
  simp only [step, h]

/-- Settles O1: the step of a queue with a front command, and of an empty one. -/
theorem stepRunsTheFrontCommand : Obligations.StepRunsTheFrontCommand :=
  ⟨fun _ _ _ => rfl, step_of_no_pending⟩

end Sys2Proof.Machine
end

section
/-! PROOFS. Commands whose event is not due (log 2): each meaning's test, where it fails. -/

namespace Sys2Proof.Machine

open Sys2Proof

/-! ## Requests (R48, R51, R52) -/

/-- R48: no presentation is due at a port with a current request or an empty queue. -/
theorem exec_presentation_of_not_due (p : Port) (s : State) (h : (s.port p).current ≠ none ∨ (s.port p).queue = []) :
    exec (.presentation p) s = .next s := by
  have hdue : (s.port p).presentable = false :=
    (s.port p).presentable_eq_false.2 fun hc => h.resolve_left fun hne => hne hc
  exact if_neg (ne_true_of_eq_false hdue)

/-- R51: no queued request stands at the place named. -/
theorem exec_deadlineExpiry_of_no_place (p : Port) (s : State) (i : Nat) (h : (s.port p).queue[i]? = none) :
    exec (.deadlineExpiry p (.queued i)) s = .next s := by
  simp only [exec, execDeadlineExpiry, h]

/-- R51: the timer of the queued request named does not run. -/
theorem exec_deadlineExpiry_of_stopped (p : Port) (s : State) (i : Nat) (q : Queued)
    (h : (s.port p).queue[i]? = some q) (ht : q.timer = .stopped) :
    exec (.deadlineExpiry p (.queued i)) s = .next s := by
  simp only [exec, execDeadlineExpiry, h, ht, Timer.isRunning_stopped, Bool.false_eq_true, if_false]

/-- R52: a port whose candidates have all been granted waits ungranted nowhere. -/
theorem State.waitsUngranted_of_granted (s : State) (p : Port)
    (h : ∀ (k : BankId) (c : Candidate), (s.bank k).candidate p = some c → c.granted = true) :
    s.waitsUngranted p = none := by
  refine List.find?_eq_none.2 fun k _ hk => ?_
  obtain ⟨c, hc, hungranted⟩ := (Option.any_eq_true _ _).1 hk
  rw [h k c hc] at hungranted
  cases hungranted

/-- R52: no current request of the port waits ungranted with its timer running. -/
theorem exec_deadlineExpiry_current_of_not_due (p : Port) (s : State)
    (h : (s.port p).current = none ∨ (∃ cur, (s.port p).current = some cur ∧ cur.timer = .stopped)
      ∨ ∀ (k : BankId) (c : Candidate), (s.bank k).candidate p = some c → c.granted = true) :
    exec (.deadlineExpiry p .current) s = .next s := by
  rcases h with hnone | ⟨cur, hcur, ht⟩ | hgranted
  · simp only [exec, execDeadlineExpiry, hnone]
  · simp only [exec, execDeadlineExpiry, hcur]
    cases s.waitsUngranted p with
    | none => rfl
    | some b => exact if_neg (ne_true_of_eq_false (congrArg Timer.isRunning ht))
  · have hnowhere : s.waitsUngranted p = none := s.waitsUngranted_of_granted p hgranted
    simp only [exec, execDeadlineExpiry, hnowhere]
    cases (s.port p).current <;> rfl

/-! ## Banks (R7 to R14, R70, R71) -/

/-- R70: the search grants no read candidate. -/
theorem exec_readGrant_of_not_due (b : BankId) (s : State)
    (h : ∀ q c, (s.bank b).nextGrant = some (q, c) → c.target.isRead = false) : exec (.readGrant b) s = .next s := by
  dsimp only [exec, execReadGrant]
  split
  · next q c hg => exact if_neg (ne_true_of_eq_false (h q c hg))
  · rfl

/-- R71: the search grants no write candidate. -/
theorem exec_writeGrant_of_not_due (b : BankId) (s : State)
    (h : ∀ q c, (s.bank b).nextGrant = some (q, c) → c.target.isRead = true) : exec (.writeGrant b) s = .next s := by
  dsimp only [exec, execWriteGrant]
  split
  · next q c hg => exact if_pos (h q c hg)
  · rfl

/-- R9: no write is STARTING, or the bank is not free for it. -/
theorem exec_writeStart_of_not_due (b : BankId) (s : State)
    (h : (∀ op, (s.bank b).writeSlot ≠ .busy .starting op) ∨ (s.bank b).readSlot ≠ none ∨ (s.bank b).openStreams ≠ 0) :
    exec (.writeStart b) s = .next s := by
  dsimp only [exec, execWriteStart]
  split
  · next op hdue =>
    obtain ⟨hslot, hread, hstreams⟩ := ((s.bank b).startDue_eq_some op).1 hdue
    rcases h with hno | hbusy | hopen
    · exact absurd hslot (hno op)
    · exact absurd hread hbusy
    · exact absurd hstreams hopen
  · rfl

/-- R13: no erase is SUSPENDING. -/
theorem exec_suspendComplete_of_not_due (b : BankId) (s : State)
    (h : ∀ op, (s.bank b).writeSlot ≠ .busy .suspending op) : exec (.suspendComplete b) s = .next s := by
  dsimp only [exec, execSuspendComplete]
  split
  · next op hslot => exact absurd hslot (h op)
  · rfl

/-- R14: no erase is SUSPENDED, or the bank is not free for it. -/
theorem exec_resume_of_not_due (b : BankId) (s : State)
    (h : (∀ op, (s.bank b).writeSlot ≠ .busy .suspended op) ∨ (s.bank b).readSlot ≠ none ∨ (s.bank b).openStreams ≠ 0
      ∨ ∃ q c, (s.bank b).candidate q = some c ∧ c.target.isRead = true) : exec (.resume b) s = .next s := by
  refine if_neg fun hdue => ?_
  obtain ⟨op, hslot, hread, hstreams, hnoRead⟩ := (s.bank b).resumeDue_eq_true.1 hdue
  rcases h with hno | hbusy | hopen | hwaits
  · exact hno op hslot
  · exact hbusy hread
  · exact hopen hstreams
  · rw [(s.bank b).hasReadCandidate_iff.2 hwaits] at hnoRead
    cases hnoRead

/-- R7: the read slot is IDLE. -/
theorem exec_readComplete_of_idle (b : BankId) (s : State) (h : (s.bank b).readSlot = none) :
    exec (.readComplete b) s = .next s := by
  simp only [exec, execReadComplete, h]

/-- R10: no program is PROGRAMMING. -/
theorem exec_programComplete_of_not_due (b : BankId) (s : State)
    (h : ∀ op, (s.bank b).writeSlot ≠ .busy .programming op) : exec (.programComplete b) s = .next s := by
  dsimp only [exec, execProgramComplete]
  split
  · next hslot => exact absurd hslot (h _)
  · rfl

/-- R11: no erase is ERASING or SUSPENDING. -/
theorem exec_sectorEraseComplete_of_not_due (b : BankId) (s : State)
    (h : ∀ op, (s.bank b).writeSlot ≠ .busy .erasing op ∧ (s.bank b).writeSlot ≠ .busy .suspending op) :
    exec (.sectorEraseComplete b) s = .next s := by
  dsimp only [exec, execSectorEraseComplete]
  split
  · next hslot => exact absurd hslot (h _).1
  · next hslot => exact absurd hslot (h _).2
  · rfl

/-! ## The Boot Supervisor and the Configuration Store (R112, R114, R120, R134) -/

/-- R112: no pulse is in progress. -/
theorem exec_pulseRelease_of_stopped (p : Port) (s : State) (h : (s.port p).pulse = .stopped) :
    exec (.pulseRelease p) s = .next s :=
  if_neg (ne_true_of_eq_false (congrArg Timer.isRunning h))

/-- R114: the boot timer does not run. -/
theorem exec_bootTimerExpiry_of_stopped (p : Port) (s : State) (h : (s.port p).bootTimer = .stopped) :
    exec (.bootTimerExpiry p) s = .next s :=
  if_neg (ne_true_of_eq_false (congrArg Timer.isRunning h))

/-- R120: the watchdog does not run, so neither its half nor its whole period passes. -/
theorem exec_watchdog_of_stopped (p : Port) (s : State) (h : (s.port p).watchdog = .stopped) :
    exec (.watchdogHalf p) s = .next s ∧ exec (.watchdogExpiry p) s = .next s := by
  refine ⟨congrArg Host.Outcome.next ?_, if_neg (ne_true_of_eq_false (congrArg Watchdog.isRunning h))⟩
  simp only [State.watchdogHalf, h]

/-- R134, R137: the writer is WRITING, or nothing asks for a write. -/
theorem exec_configurationWriteBegin_of_not_due (s : State)
    (h : s.writer.snapshot ≠ none ∨ s.writer.waiting = false ∧ s.writer.commitPending = false) :
    exec .configurationWriteBegin s = .next s := by
  have hdue : s.writeDue = false := s.writeDue_eq_false.2 fun hidle => h.resolve_left fun hne => hne hidle
  exact if_neg (ne_true_of_eq_false hdue)

/-- R137: the writer is IDLE. -/
theorem exec_configurationWriteComplete_of_idle (s : State) (h : s.writer.snapshot = none) :
    exec .configurationWriteComplete s = .next s := by
  simp only [exec, execConfigurationWriteComplete, h]

/-- Settles O19, command by command. -/
theorem eventsNotDueHaveNoEffect : Obligations.EventsNotDueHaveNoEffect := fun p b s =>
  ⟨exec_presentation_of_not_due p s, exec_deadlineExpiry_of_no_place p s, exec_deadlineExpiry_of_stopped p s,
    exec_deadlineExpiry_current_of_not_due p s, exec_readGrant_of_not_due b s, exec_writeGrant_of_not_due b s,
    exec_writeStart_of_not_due b s, exec_suspendComplete_of_not_due b s, exec_resume_of_not_due b s,
    exec_readComplete_of_idle b s, exec_programComplete_of_not_due b s, exec_sectorEraseComplete_of_not_due b s,
    exec_pulseRelease_of_stopped p s, exec_bootTimerExpiry_of_stopped p s, exec_watchdog_of_stopped p s,
    exec_configurationWriteBegin_of_not_due s, exec_configurationWriteComplete_of_idle s,
    fun hunpowered => if_pos hunpowered⟩

end Sys2Proof.Machine
end
